-- ==== Sys2Proof/Word.lean ====
section
/-! DEFINITION. The two widths of the machine (00_scope.md rule R7). -/

namespace Sys2Proof

/-- An 8-bit register, memory byte or instruction byte. -/
abbrev Byte := BitVec 8

/-- A 16-bit address or program counter. -/
abbrev Addr := BitVec 16

end Sys2Proof
end

