-- ==== Sys2Proof/Syntax.lean ====
section
/-! DEFINITION. The instructions: one constructor per mnemonic of spec/opcode_table.json, its
operand forms as data (30_encoding.md rules R77, R78 and R82). Register numbers and opcode bytes do
not occur here; `Decode.lean` relates these terms to bytes. -/

namespace Sys2Proof

/-- The addressing-mode ids of rule R78's table. -/
inductive Mode where
  | imp | acc | imm | zp | zpx | zpy | abs | abx | aby | izx | izy | izp | rel | ind | iax | zpr | brk
  deriving DecidableEq, Repr

/-- The modes of rule R78 that name one byte of memory, with their operand bytes assembled. -/
inductive MemMode where
  | zp (z : Byte)
  | zpx (z : Byte)
  | zpy (z : Byte)
  | abs (base : Addr)
  | abx (base : Addr)
  | aby (base : Addr)
  | izx (z : Byte)
  | izy (z : Byte)
  | izp (z : Byte)
  deriving DecidableEq, Repr

/-- What an instruction that only reads takes its operand from (`Load` of rule R140). -/
inductive Source where
  | imm (b : Byte)
  | mem (m : MemMode)
  deriving DecidableEq, Repr

/-- What a read-modify-write instruction changes (`RMW` of rule R140). -/
inductive RmwTarget where
  | acc
  | mem (m : MemMode)
  deriving DecidableEq, Repr

/-- The three forms of JMP (rule R221). -/
inductive JumpTarget where
  | abs (a : Addr)
  | ind (a : Addr)
  | iax (a : Addr)
  deriving DecidableEq, Repr

/-- Every instruction of spec/opcode_table.json, in the table's order. -/
inductive Instr where
  /-- BRK (R244). -/
  | brk (sig : Byte)
  /-- ORA (R203). -/
  | ora (src : Source)
  /-- A byte value outside the mapped set (R249). -/
  | unmapped (op : Byte)
  /-- TSB (R205). -/
  | tsb (m : MemMode)
  /-- ASL (R147). -/
  | asl (t : RmwTarget)
  /-- RMB0 (R207). -/
  | rmb0 (z : Byte)
  /-- PHP (R179). -/
  | php
  /-- BBR0 (R219). -/
  | bbr0 (z rel : Byte)
  /-- BPL (R210). -/
  | bpl (rel : Byte)
  /-- TRB (R206). -/
  | trb (m : MemMode)
  /-- RMB1 (R207). -/
  | rmb1 (z : Byte)
  /-- CLC (R231). -/
  | clc
  /-- INC (R238). -/
  | inc (t : RmwTarget)
  /-- BBR1 (R219). -/
  | bbr1 (z rel : Byte)
  /-- JSR (R222). -/
  | jsr (target : Addr)
  /-- AND (R201). -/
  | and (src : Source)
  /-- BIT (R204). -/
  | bit (src : Source)
  /-- ROL (R149). -/
  | rol (t : RmwTarget)
  /-- RMB2 (R207). -/
  | rmb2 (z : Byte)
  /-- PLP (R183). -/
  | plp
  /-- BBR2 (R219). -/
  | bbr2 (z rel : Byte)
  /-- BMI (R211). -/
  | bmi (rel : Byte)
  /-- RMB3 (R207). -/
  | rmb3 (z : Byte)
  /-- SEC (R232). -/
  | sec
  /-- DEC (R239). -/
  | dec (t : RmwTarget)
  /-- BBR3 (R219). -/
  | bbr3 (z rel : Byte)
  /-- RTI (R245). -/
  | rti
  /-- EOR (R202). -/
  | eor (src : Source)
  /-- LSR (R148). -/
  | lsr (t : RmwTarget)
  /-- RMB4 (R207). -/
  | rmb4 (z : Byte)
  /-- PHA (R178). -/
  | pha
  /-- JMP (R221). -/
  | jmp (t : JumpTarget)
  /-- BBR4 (R219). -/
  | bbr4 (z rel : Byte)
  /-- BVC (R212). -/
  | bvc (rel : Byte)
  /-- RMB5 (R207). -/
  | rmb5 (z : Byte)
  /-- CLI (R233). -/
  | cli
  /-- PHY (R181). -/
  | phy
  /-- BBR5 (R219). -/
  | bbr5 (z rel : Byte)
  /-- RTS (R223). -/
  | rts
  /-- ADC (R141). -/
  | adc (src : Source)
  /-- STZ (R177). -/
  | stz (m : MemMode)
  /-- ROR (R150). -/
  | ror (t : RmwTarget)
  /-- RMB6 (R207). -/
  | rmb6 (z : Byte)
  /-- PLA (R182). -/
  | pla
  /-- BBR6 (R219). -/
  | bbr6 (z rel : Byte)
  /-- BVS (R213). -/
  | bvs (rel : Byte)
  /-- RMB7 (R207). -/
  | rmb7 (z : Byte)
  /-- SEI (R234). -/
  | sei
  /-- PLY (R185). -/
  | ply
  /-- BBR7 (R219). -/
  | bbr7 (z rel : Byte)
  /-- BRA (R218). -/
  | bra (rel : Byte)
  /-- STA (R174). -/
  | sta (m : MemMode)
  /-- STY (R176). -/
  | sty (m : MemMode)
  /-- STX (R175). -/
  | stx (m : MemMode)
  /-- SMB0 (R208). -/
  | smb0 (z : Byte)
  /-- DEY (R243). -/
  | dey
  /-- TXA (R189). -/
  | txa
  /-- BBS0 (R220). -/
  | bbs0 (z rel : Byte)
  /-- BCC (R214). -/
  | bcc (rel : Byte)
  /-- SMB1 (R208). -/
  | smb1 (z : Byte)
  /-- TYA (R191). -/
  | tya
  /-- TXS (R190). -/
  | txs
  /-- BBS1 (R220). -/
  | bbs1 (z rel : Byte)
  /-- LDY (R173). -/
  | ldy (src : Source)
  /-- LDA (R171). -/
  | lda (src : Source)
  /-- LDX (R172). -/
  | ldx (src : Source)
  /-- SMB2 (R208). -/
  | smb2 (z : Byte)
  /-- TAY (R187). -/
  | tay
  /-- TAX (R186). -/
  | tax
  /-- BBS2 (R220). -/
  | bbs2 (z rel : Byte)
  /-- BCS (R215). -/
  | bcs (rel : Byte)
  /-- SMB3 (R208). -/
  | smb3 (z : Byte)
  /-- CLV (R237). -/
  | clv
  /-- TSX (R188). -/
  | tsx
  /-- BBS3 (R220). -/
  | bbs3 (z rel : Byte)
  /-- CPY (R146). -/
  | cpy (src : Source)
  /-- CMP (R144). -/
  | cmp (src : Source)
  /-- SMB4 (R208). -/
  | smb4 (z : Byte)
  /-- INY (R241). -/
  | iny
  /-- DEX (R242). -/
  | dex
  /-- WAI (R246). -/
  | wai
  /-- BBS4 (R220). -/
  | bbs4 (z rel : Byte)
  /-- BNE (R216). -/
  | bne (rel : Byte)
  /-- SMB5 (R208). -/
  | smb5 (z : Byte)
  /-- CLD (R235). -/
  | cld
  /-- PHX (R180). -/
  | phx
  /-- STP (R247). -/
  | stp
  /-- BBS5 (R220). -/
  | bbs5 (z rel : Byte)
  /-- CPX (R145). -/
  | cpx (src : Source)
  /-- SBC (R142). -/
  | sbc (src : Source)
  /-- SMB6 (R208). -/
  | smb6 (z : Byte)
  /-- INX (R240). -/
  | inx
  /-- NOP (R248). -/
  | nop
  /-- BBS6 (R220). -/
  | bbs6 (z rel : Byte)
  /-- BEQ (R217). -/
  | beq (rel : Byte)
  /-- SMB7 (R208). -/
  | smb7 (z : Byte)
  /-- SED (R236). -/
  | sed
  /-- PLX (R184). -/
  | plx
  /-- BBS7 (R220). -/
  | bbs7 (z rel : Byte)
  deriving DecidableEq, Repr

/-- Rule R78: the mode id of a memory form. -/
def MemMode.mode : MemMode → Mode
  | .zp _ => .zp | .zpx _ => .zpx | .zpy _ => .zpy
  | .abs _ => .abs | .abx _ => .abx | .aby _ => .aby
  | .izx _ => .izx | .izy _ => .izy | .izp _ => .izp

/-- Rule R78: the mode id of a read operand. -/
def Source.mode : Source → Mode
  | .imm _ => .imm
  | .mem m => m.mode

/-- Rule R78: the mode id of a read-modify-write operand. -/
def RmwTarget.mode : RmwTarget → Mode
  | .acc => .acc
  | .mem m => m.mode

/-- Rule R78: the mode id of a JMP operand. -/
def JumpTarget.mode : JumpTarget → Mode
  | .abs _ => .abs | .ind _ => .ind | .iax _ => .iax

namespace Instr

/-- Rule R82: the mode id of an instruction. -/
def mode : Instr → Mode
  | .ora src | .and src | .bit src | .eor src | .adc src | .ldy src | .lda src | .ldx src
  | .cpy src | .cmp src | .cpx src | .sbc src => src.mode
  | .tsb m | .trb m | .stz m | .sta m | .sty m | .stx m => m.mode
  | .asl t | .inc t | .rol t | .dec t | .lsr t | .ror t => t.mode
  | .jmp t => t.mode
  | .jsr _ => .abs
  | .bpl _ | .bmi _ | .bvc _ | .bvs _ | .bra _ | .bcc _ | .bcs _ | .bne _ | .beq _ => .rel
  | .rmb0 _ | .rmb1 _ | .rmb2 _ | .rmb3 _ | .rmb4 _ | .rmb5 _ | .rmb6 _ | .rmb7 _ | .smb0 _
  | .smb1 _ | .smb2 _ | .smb3 _ | .smb4 _ | .smb5 _ | .smb6 _ | .smb7 _ => .zp
  | .bbr0 _ _ | .bbr1 _ _ | .bbr2 _ _ | .bbr3 _ _ | .bbr4 _ _ | .bbr5 _ _ | .bbr6 _ _
  | .bbr7 _ _ | .bbs0 _ _ | .bbs1 _ _ | .bbs2 _ _ | .bbs3 _ _ | .bbs4 _ _ | .bbs5 _ _
  | .bbs6 _ _ | .bbs7 _ _ => .zpr
  | .brk _ => .brk
  | .unmapped _ => .imp
  | .php | .clc | .plp | .sec | .rti | .pha | .cli | .phy | .rts | .pla | .sei | .ply
  | .dey | .txa | .tya | .txs | .tay | .tax | .clv | .tsx | .iny | .dex | .wai | .cld
  | .phx | .stp | .inx | .nop | .sed | .plx => .imp

end Instr

/-- The program-counter classes of rule R87. -/
inductive PcClass where
  | sequential
  | absolute
  | relative
  | wait
  | halt
  deriving DecidableEq, Repr

/-- The handler categories of rule R86: labels that no rule of the core reads. -/
inductive Category where
  | arithmetic | compare | shift | loadStore | stack | transfer | logical | branch | jump
  | flags | incDec | interruptControl | noOp
  deriving DecidableEq, Repr

end Sys2Proof
end

