-- ==== Sys2Proof/Machine/Bytes.lean ====
section
/-! DEFINITION. Byte order, extension and the operand bytes of each mode (00_scope.md rules R9 and
R10, 20_memory.md rule R56, 30_encoding.md rules R77 and R78). -/

namespace Sys2Proof

/-- Rule R9 `word(lo, hi)`: the 16-bit value `hi * 256 + lo`. -/
def word (lo hi : Byte) : Addr := BitVec.ofNat 16 (hi.toNat * 256 + lo.toNat)

/-- Bits 7 to 0 of a 16-bit value. -/
def loByte (a : Addr) : Byte := BitVec.ofNat 8 a.toNat

/-- Bits 15 to 8 of a 16-bit value. -/
def hiByte (a : Addr) : Byte := BitVec.ofNat 8 (a.toNat / 256)

/-- Rule R10 `zext_16`. -/
def zext16 (b : Byte) : Addr := b.setWidth 16

/-- Rule R10 `int8`: the two's-complement value, -128 to 127. -/
def int8 (b : Byte) : Int := b.toInt

/-- Rule R56: a 16-bit operand is encoded low byte first. -/
def wordBytes (a : Addr) : List Byte := [loByte a, hiByte a]

/-- Rules R77 and R78: the operand bytes of a memory form, in address order. -/
def MemMode.bytes : MemMode → List Byte
  | .zp z | .zpx z | .zpy z | .izx z | .izy z | .izp z => [z]
  | .abs a | .abx a | .aby a => wordBytes a

/-- Rules R77 and R78: the operand bytes of a read operand. -/
def Source.bytes : Source → List Byte
  | .imm b => [b]
  | .mem m => m.bytes

/-- Rules R77 and R78: the operand bytes of a read-modify-write operand. -/
def RmwTarget.bytes : RmwTarget → List Byte
  | .acc => []
  | .mem m => m.bytes

/-- Rule R78: the operand bytes of the three JMP forms. -/
def JumpTarget.bytes : JumpTarget → List Byte
  | .abs a | .ind a | .iax a => wordBytes a

end Sys2Proof
end

