-- ==== Sys2Proof/Config.lean ====
section
/-! DEFINITION. The defaults of the parameters of rule R8 (00_scope.md), and the free values: constants
without a body, so that nothing can be proved of the value drawn. The parameters themselves are
`Machine.Params`, an argument of `Machine.stepUnder`. -/

namespace Sys2Proof

/-- Rule R8, decision D4: what the cursor does past 0xFFFF. -/
inductive CursorTopPolicy where
  | wrap
  | fault
  deriving DecidableEq, Repr

/-- The two instructions whose decimal results draw (rule R143). -/
inductive DecimalOp where
  | adc
  | sbc
  deriving DecidableEq, Repr

namespace Config

/-- Rule R8: the spec's default of `cursorTopPolicy` (rule R105, decision D4). -/
def cursorTopPolicy : CursorTopPolicy := .wrap

/-- What an address that memory does not list reads as (DESIGN CHOICE, log 6). -/
def unlistedByte : Byte := 0x00#8

/-- Rule R83: the 44 byte values that no handler is mapped to. -/
def unmappedBytes : List Byte :=
  [0x02, 0x03, 0x0B, 0x13, 0x1B, 0x22, 0x23, 0x2B, 0x33, 0x3B]
    ++ [0x42, 0x43, 0x44, 0x4B, 0x53, 0x54, 0x5B, 0x5C]
    ++ [0x62, 0x63, 0x6B, 0x73, 0x7B, 0x82, 0x83, 0x8B, 0x93, 0x9B]
    ++ [0xA3, 0xAB, 0xB3, 0xBB, 0xC2, 0xC3, 0xD3, 0xD4, 0xDC]
    ++ [0xE2, 0xE3, 0xEB, 0xF3, 0xF4, 0xFB, 0xFC]

/-- Rule R83: membership in the default `mappedSet`, the other 212 byte values (decision D1). -/
def mapped (op : Byte) : Bool := !unmappedBytes.contains op

/-- Rule R143 `decimalV`: V after a decimal ADC or SBC of accumulator and operand with carry in.
A free value, fresh at each draw (log 11). -/
opaque decimalV : Nat → DecimalOp → Byte → Byte → Bool → Bool

/-- Rule R143 `decimalInvalid`: the accumulator and the carry after a decimal ADC or SBC of
operands that are not both valid BCD. A free value, fresh at each draw (log 11). -/
opaque decimalInvalid : Nat → DecimalOp → Byte → Byte → Bool → Byte × Bool

/-- Rule R108 `haltPc`: whether the pc left by STP is `pc_at_fetch + 1` rather than `pc_at_fetch`.
A free value, fresh at each draw (log 12). -/
opaque haltPcAdvances : Nat → Bool

end Config

end Sys2Proof
end

