-- ==== Sys2Proof/Machine/State.lean ====
section
/-! DEFINITION. The state of the core (10_state.md rules R20 to R42), the reasons a step can stop, and
the state a run starts in. -/

namespace Sys2Proof.Machine

/-- Rule R50: memory, listed by address. The canonical form is `Memory.wf`. -/
abbrev Memory := List Host.Cell

/-- Rule R35: where the dispatch loop stands. -/
inductive Phase where
  | fetch
  | dispatch
  | resolvePc
  | ioSync
  | waitPoll
  | interruptCheck
  | haltFlush
  | halted
  deriving DecidableEq, Repr

/-- Rules R36 and R268: the interrupt controller's state. -/
inductive IcState where
  | armed
  | servicing
  deriving DecidableEq, Repr

/-- Rule R53: the direction marker of a trace record. -/
inductive Direction where
  | read
  | write
  deriving DecidableEq, Repr

/-- Rule R53: what one Memory Bus access tells the trace sink. -/
structure TraceRecord where
  addr : Addr
  dir : Direction
  value : Byte
  deriving DecidableEq, Repr

/-- Rule R123: all that one device call may do. It replaces any bytes of memory, in the order listed,
and it may set the interrupt request. The external interrupt source's assertions since the last read
of the latch are counted in here too (rule R121, log 3). -/
structure DeviceReply where
  writes : List (Addr × Byte)
  asserts : Bool
  deriving DecidableEq, Repr, Inhabited

/-- Where the device's replies come from (the parameter `deviceHandle` of rule R8, log 2). -/
inductive DeviceSource where
  /-- The replies of the next calls, in order; after the last one the device does nothing. -/
  | scripted (replies : List DeviceReply)
  /-- Every reply is a free value. -/
  | free
  deriving DecidableEq, Repr

/-- Why the machine stops without a next state. -/
inductive Fault where
  /-- Raised by `step` in phase HALTED: the run has ended and no step is enabled (rule R125). Safe:
  the hardware does nothing more either. -/
  | halted
  /-- Raised by a cursor read past 0xFFFF when `cursorTopPolicy` is `fault` (rules R104 and R105), which
  is not the default. Safe: it only makes claims unprovable. -/
  | cursorBeyondTop (pcAtFetch : Addr) (decodeOffset : Nat)
  deriving DecidableEq, Repr

/-- Why an instruction has no meaning. -/
inductive Refusal where
  /-- For an arm of `exec` without a meaning. No arm raises it: every instruction has its meaning.
  Safe: it would only make claims unprovable. -/
  | notModelled (mnemonic : String)
  deriving DecidableEq, Repr

/-- The machine's state: rule R20's list, then the model's own four fields. -/
structure State where
  /-- A, the accumulator (R21). -/
  a : Byte
  /-- X, index_x (R22). -/
  x : Byte
  /-- Y, index_y (R22). -/
  y : Byte
  /-- SP, stack_pointer (R23). -/
  sp : Byte
  /-- P, status_flags (R24). -/
  p : Byte
  /-- pc (R27). -/
  pc : Addr
  /-- memory (R37, R50). -/
  mem : Memory
  /-- pc_at_fetch (R28). -/
  pcAtFetch : Addr
  /-- current_opcode (R29). -/
  currentOpcode : Byte
  /-- decode_offset (R30). -/
  decodeOffset : Nat
  /-- branch_displacement (R31). -/
  branchDisplacement : Int
  /-- DIRTY (R32). -/
  dirty : Bool
  /-- WAIT (R33). -/
  wait : Bool
  /-- interrupt_pending (R34). -/
  interruptPending : Bool
  /-- phase (R35). -/
  phase : Phase
  /-- ic_state (R36). -/
  icState : IcState
  /-- The model's own: where the device's replies come from (log 2). -/
  device : DeviceSource
  /-- The model's own: device calls so far (R303, log 13). -/
  deviceCalls : Nat
  /-- The model's own: free values drawn so far (log 13). -/
  draws : Nat
  /-- The model's own: the records sent to the trace sink, newest first (R53, R54, log 18). -/
  trace : List TraceRecord
  deriving DecidableEq, Repr

/-- The start of a run (rules R40, R290 and R291): FETCH, armed, no request pending. The core has no
reset sequence; every other field is a launch parameter or unspecified there, and its value here is
the model's choice (log 2, 4, 5, 6, 7, 13 and 18). -/
def State.reset : State where
  a := 0x00#8
  x := 0x00#8
  y := 0x00#8
  sp := 0x00#8
  p := 0x00#8
  pc := 0x0000#16
  mem := []
  pcAtFetch := 0x0000#16
  currentOpcode := 0x00#8
  decodeOffset := 0
  branchDisplacement := 0
  dirty := false
  wait := false
  interruptPending := false
  phase := .fetch
  icState := .armed
  device := .scripted []
  deviceCalls := 0
  draws := 0
  trace := []

/-- What running an instruction or a step answers. -/
abbrev Out := Host.Outcome State Fault Refusal

end Sys2Proof.Machine
end

