-- ==== Sys2Proof/Machine/Flags.lean ====
section
/-! DEFINITION. The status byte and every flag and value computation of the reference handlers:
10_state.md rule R24, 00_scope.md rule R12 (`SetNZ`) and the computations of files 41, 43 and 44. Each
takes the operands and the status byte, computes in Nat or Int and narrows at the end. -/

namespace Sys2Proof.Machine

/-- Rule R24: the eight flags. -/
inductive Flag where
  | C
  | Z
  | I
  | D
  | B
  | U
  | V
  | N
  deriving DecidableEq, Repr

/-- Rule R24: the bit of P that holds a flag. -/
def Flag.bit : Flag → Nat
  | .C => 0
  | .Z => 1
  | .I => 2
  | .D => 3
  | .B => 4
  | .U => 5
  | .V => 6
  | .N => 7

namespace Status

/-- Bits `B` and `U`, which PHP and BRK set in the pushed copy (rules R179 and R244). -/
def pushedBreakBits : Byte := 0x30#8

/-- Rule R24: a flag of a status byte. -/
def flag (f : Flag) (p : Byte) : Bool := p.getLsbD f.bit

/-- Rule R24: a status byte with one flag written, the other seven bits as they were. -/
def setFlag (f : Flag) (b : Bool) (p : Byte) : Byte :=
  if b then p ||| (1#8 <<< f.bit) else p &&& ~~~(1#8 <<< f.bit)

/-- Rule R12 `SetNZ(v)`. -/
def setNZ (v p : Byte) : Byte := setFlag .N v.msb (setFlag .Z (v == 0) p)

end Status

namespace Alu

open Status

/-- Rule R141 with D = 0: the sum and the status. -/
def addBinary (a m p : Byte) : Byte × Byte :=
  let s := a.toNat + m.toNat + (flag .C p).toNat
  let r := BitVec.ofNat 8 s
  let v := ((a ^^^ r) &&& (m ^^^ r) &&& 0x80#8) != 0
  (r, setNZ r (setFlag .C (decide (s > 0xFF)) (setFlag .V v p)))

/-- Rule R142 with D = 0: the difference and the status; C = 1 means no borrow. -/
def subBinary (a m p : Byte) : Byte × Byte := addBinary a (m ^^^ 0xFF#8) p

/-- Rule R143: both digits are at most 9. -/
def validBcd (v : Byte) : Bool := decide (v.toNat / 16 ≤ 9 ∧ v.toNat % 16 ≤ 9)

/-- Rule R143 `bcd(v)`. -/
def bcd (v : Byte) : Nat := 10 * (v.toNat / 16) + v.toNat % 16

/-- Rule R143 `tobcd(n)`, for n at most 99. -/
def tobcd (n : Nat) : Byte := BitVec.ofNat 8 (n / 10 * 16 + n % 10)

/-- Rule R143: accumulator and carry after DecimalAdd; a draw for operands that are not BCD. -/
def decimalAddValue (draw : Nat) (a m : Byte) (c : Bool) : Byte × Bool :=
  if validBcd a && validBcd m then
    let r := bcd a + bcd m + c.toNat
    (tobcd (r % 100), decide (r ≥ 100))
  else Config.decimalInvalid draw .adc a m c

/-- Rule R143: accumulator and carry after DecimalSub; a draw for operands that are not BCD. -/
def decimalSubValue (draw : Nat) (a m : Byte) (c : Bool) : Byte × Bool :=
  if validBcd a && validBcd m then
    let r : Int := (bcd a : Int) - bcd m - (1 - c.toNat)
    (tobcd (r % 100).toNat, decide (r ≥ 0))
  else Config.decimalInvalid draw .sbc a m c

/-- Rules R141 and R143 with D = 1: the sum and the status. V is a draw. -/
def addDecimal (draw : Nat) (a m p : Byte) : Byte × Byte :=
  let c := flag .C p
  let r := decimalAddValue draw a m c
  (r.1, setNZ r.1 (setFlag .V (Config.decimalV draw .adc a m c) (setFlag .C r.2 p)))

/-- Rules R142 and R143 with D = 1: the difference and the status. V is a draw. -/
def subDecimal (draw : Nat) (a m p : Byte) : Byte × Byte :=
  let c := flag .C p
  let r := decimalSubValue draw a m c
  (r.1, setNZ r.1 (setFlag .V (Config.decimalV draw .sbc a m c) (setFlag .C r.2 p)))

/-- Rule R144 (R145, R146): the status after comparing `reg` with `m`, unsigned. -/
def compare (reg m p : Byte) : Byte :=
  setFlag .N (reg - m).msb (setFlag .Z (reg == m) (setFlag .C (decide (reg.toNat ≥ m.toNat)) p))

/-- Rule R147: ASL's result and status. -/
def asl (v p : Byte) : Byte × Byte :=
  let r := BitVec.ofNat 8 (v.toNat * 2)
  (r, setNZ r (setFlag .C (v.getLsbD 7) p))

/-- Rule R148: LSR's result and status. -/
def lsr (v p : Byte) : Byte × Byte :=
  let r := BitVec.ofNat 8 (v.toNat / 2)
  (r, setNZ r (setFlag .C (v.getLsbD 0) p))

/-- Rule R149: ROL's result and status. -/
def rol (v p : Byte) : Byte × Byte :=
  let r := BitVec.ofNat 8 (v.toNat * 2 + (flag .C p).toNat)
  (r, setNZ r (setFlag .C (v.getLsbD 7) p))

/-- Rule R150: ROR's result and status. -/
def ror (v p : Byte) : Byte × Byte :=
  let r := BitVec.ofNat 8 (v.toNat / 2 + (flag .C p).toNat * 0x80)
  (r, setNZ r (setFlag .C (v.getLsbD 0) p))

/-- Rule R238: INC's result and status. -/
def inc (v p : Byte) : Byte × Byte := (v + 1, setNZ (v + 1) p)

/-- Rule R239: DEC's result and status. -/
def dec (v p : Byte) : Byte × Byte := (v - 1, setNZ (v - 1) p)

/-- Rule R204: the status after BIT of a memory operand. -/
def bitMemory (a m p : Byte) : Byte :=
  setFlag .V (m.getLsbD 6) (setFlag .N (m.getLsbD 7) (setFlag .Z (a &&& m == 0) p))

/-- Rule R204: the status after BIT of an immediate; N and V stay. -/
def bitImmediate (a m p : Byte) : Byte := setFlag .Z (a &&& m == 0) p

/-- Rule R205: TSB's byte and status. -/
def tsb (a v p : Byte) : Byte × Byte := (v ||| a, setFlag .Z (a &&& v == 0) p)

/-- Rule R206: TRB's byte and status. -/
def trb (a v p : Byte) : Byte × Byte := (v &&& (a ^^^ 0xFF#8), setFlag .Z (a &&& v == 0) p)

/-- Rule R207: a byte with bit n reset. -/
def resetBit (n : Nat) (v : Byte) : Byte := v &&& ((1#8 <<< n) ^^^ 0xFF#8)

/-- Rule R208: a byte with bit n set. -/
def setBit (n : Nat) (v : Byte) : Byte := v ||| (1#8 <<< n)

end Alu

end Sys2Proof.Machine
end

