-- ==== Sys2Proof/Machine/Memory.lean ====
section
/-! DEFINITION. Memory as data (20_memory.md rules R50, R51, R52 and R71): reading and storing one byte,
and the canonical form. -/

namespace Sys2Proof.Machine

namespace Memory

/-- The byte listed at a key, `Config.unlistedByte` where none is (log 6). -/
def lookup : Memory → Nat → Byte
  | [], _ => Config.unlistedByte
  | (k, v) :: rest, n => if n = k then v else lookup rest n

/-- Lists `v` at key `n`, keeping the keys rising; the unlisted byte is never listed. -/
def insert : Memory → Nat → Byte → Memory
  | [], n, v => if v = Config.unlistedByte then [] else [(n, v)]
  | (k, w) :: rest, n, v =>
    if n < k then (if v = Config.unlistedByte then (k, w) :: rest else (n, v) :: (k, w) :: rest)
    else if n = k then (if v = Config.unlistedByte then rest else (n, v) :: rest)
    else (k, w) :: insert rest n v

/-- Rule R50: `mem[a]`. Every 16-bit address is mapped. -/
def read (m : Memory) (a : Addr) : Byte := lookup m a.toNat

/-- Rule R52: `mem[a] <- v`. -/
def write (m : Memory) (a : Addr) (v : Byte) : Memory := insert m a.toNat v

/-- Bytes stored one after the other, the later ones winning. -/
def writes (m : Memory) : List (Addr × Byte) → Memory
  | [] => m
  | (a, v) :: rest => writes (m.write a v) rest

/-- The canonical form: addresses strictly rising and inside the 16-bit space, and no cell equal to what
an unlisted address reads as. -/
def wf (m : Memory) : Bool :=
  decide (List.Pairwise (fun c d : Host.Cell => c.1 < d.1) m)
    && m.all fun c => decide (c.1 < 2 ^ 16) && c.2 != Config.unlistedByte

end Memory

end Sys2Proof.Machine
end

