-- ==== Sys2Proof/Machine/Ops.lean ====
section
/-! DEFINITION. The operations every meaning is written with: register writes, the Memory Bus
(20_memory.md rules R51 and R52), the stack (R58 and R59), the cursor (40_dispatch.md rule R104), and
the one sequence that saves the program and takes the vector (60_exceptions.md rules R265 and R244)
with the return from it (R245). -/

namespace Sys2Proof.Machine

namespace State

/-! ### Registers -/

/-- `A <- v` (rule R21). -/
def setA (v : Byte) (s : State) : State := { s with a := v }

/-- `X <- v` (rule R22). -/
def setX (v : Byte) (s : State) : State := { s with x := v }

/-- `Y <- v` (rule R22). -/
def setY (v : Byte) (s : State) : State := { s with y := v }

/-- `SP <- v` (rule R23). -/
def setSp (v : Byte) (s : State) : State := { s with sp := v }

/-- `P <- v`, all eight bits (rule R24). -/
def setP (v : Byte) (s : State) : State := { s with p := v }

/-- `pc <- v`, the absolute transfer of rule R110. -/
def setPc (v : Addr) (s : State) : State := { s with pc := v }

/-- A flag of P (rule R24). -/
def flag (f : Flag) (s : State) : Bool := Status.flag f s.p

/-- One flag of P written (rule R24). -/
def setFlag (f : Flag) (b : Bool) (s : State) : State := s.setP (Status.setFlag f b s.p)

/-- `SetNZ(v)` (rule R12). -/
def setNZ (v : Byte) (s : State) : State := s.setP (Status.setNZ v s.p)

/-- The relative transfer of rules R110 and R209: the displacement is set where the condition holds. -/
def branchIf (cond : Bool) (rel : Byte) (s : State) : State :=
  { s with branchDisplacement := if cond then int8 rel else s.branchDisplacement }

/-! ### The Memory Bus -/

/-- One record to the trace sink (rule R53). -/
def emit (addr : Addr) (dir : Direction) (v : Byte) (s : State) : State :=
  { s with trace := ⟨addr, dir, v⟩ :: s.trace }

/-- `MemRead(a, 1)` (rule R51). -/
def busRead (addr : Addr) (s : State) : Byte × State :=
  (s.mem.read addr, s.emit addr .read (s.mem.read addr))

/-- `MemWrite(a, 1, v)` (rule R52): the store, DIRTY and the record. -/
def busWrite (addr : Addr) (v : Byte) (s : State) : State :=
  { s with mem := s.mem.write addr v, dirty := true, trace := ⟨addr, .write, v⟩ :: s.trace }

/-- Rule R57: a 16-bit quantity as two reads, the low byte's first. -/
def readPair (loAddr hiAddr : Addr) (s : State) : Addr × State :=
  let lo := s.busRead loAddr
  let hi := lo.2.busRead hiAddr
  (word lo.1 hi.1, hi.2)

/-! ### The stack -/

/-- The stack page with SP as the offset (rules R58 and R61). -/
def stackAddr (sp : Byte) : Addr := 0x0100#16 + zext16 sp

/-- `Push(v)` (rule R58): write, then decrement within the page. -/
def push (v : Byte) (s : State) : State := (s.busWrite (stackAddr s.sp) v).setSp (s.sp - 1)

/-- `Pull()` (rule R59): increment within the page, then read. -/
def pull (s : State) : Byte × State := (s.setSp (s.sp + 1)).busRead (stackAddr (s.sp + 1))

/-- Rules R222 and R265: a 16-bit value pushed high byte first. -/
def pushAddr (v : Addr) (s : State) : State := (s.push (hiByte v)).push (loByte v)

/-- Rules R223 and R245: a 16-bit value pulled low byte first. -/
def pullAddr (s : State) : Addr × State :=
  let lo := s.pull
  let hi := lo.2.pull
  (word lo.1 hi.1, hi.2)

/-! ### The cursor -/

/-- Rule R104: `pc_at_fetch + decode_offset` before reduction. -/
def cursorPosition (s : State) : Nat := s.pcAtFetch.toNat + s.decodeOffset

/-- Rule R104: the address the next cursor read uses. -/
def cursorAddr (s : State) : Addr := BitVec.ofNat 16 s.cursorPosition

/-- What one cursor read of byte `b` does to the state (rule R104): its trace record and the advance of
`decode_offset`. -/
def consume (b : Byte) (s : State) : State :=
  { s with decodeOffset := s.decodeOffset + 1, trace := ⟨s.cursorAddr, .read, b⟩ :: s.trace }

/-- Rule R104: the cursor has run past 0xFFFF where the policy forbids it. -/
def cursorBlocked (policy : CursorTopPolicy) (s : State) : Bool :=
  policy == .fault && decide (0xFFFF < s.cursorPosition)

/-- `Fetch()` (rule R104). -/
def fetch (policy : CursorTopPolicy) (s : State) : Host.Outcome (Byte × State) Fault Refusal :=
  if s.cursorBlocked policy then .fault (.cursorBeyondTop s.pcAtFetch s.decodeOffset)
  else .next (s.mem.read s.cursorAddr, s.consume (s.mem.read s.cursorAddr))

/-- The cursor reads of operand bytes that the decoder has already read (log 14), where no read is blocked:
`Fetch()` once for each byte, its value given. -/
def consumeAll : List Byte → State → State
  | [], s => s
  | b :: rest, s => consumeAll rest (s.consume b)

/-- The same under a policy (rule R104): the first read that the policy blocks stops it. -/
def consumeUnder (policy : CursorTopPolicy) : List Byte → State → Out
  | [], s => .next s
  | b :: rest, s =>
    if s.cursorBlocked policy then .fault (.cursorBeyondTop s.pcAtFetch s.decodeOffset)
    else consumeUnder policy rest (s.consume b)

/-- Rules R110 and R111: a reference handler consumes its operand bytes through the cursor and then computes;
it never fails of itself. `cursorTopPolicy` is applied around it (`State.runReference`). -/
def withOperands (bytes : List Byte) (s : State) (compute : State → State) : Out :=
  .next (compute (consumeAll bytes s))

/-! ### Taking the vector and returning -/

/-- Rule R61: the low byte of the vector. -/
def vectorLo : Addr := 0xFFFE#16

/-- Rule R61: the high byte of the vector. -/
def vectorHi : Addr := 0xFFFF#16

/-- The sequence shared by interrupt injection (rule R265) and BRK (rule R244): push the return address,
high byte first, then a status byte; go to the address the vector holds; set I. -/
def enterVector (ret : Addr) (status : Byte) (s : State) : State :=
  let pushed := (s.pushAddr ret).push status
  let v := pushed.readPair vectorLo vectorHi
  (v.2.setPc v.1).setFlag .I true

/-- `Inject()` (rule R265): the pc and P as they stand are saved and the request is cleared. `ic_state`
is servicing within it and armed again at its end. -/
def inject (s : State) : State :=
  let servicing : State := { s with icState := .servicing }
  { servicing.enterVector s.pc s.p with interruptPending := false, icState := .armed }

/-- The return (rule R245): all of P, then the pc, low byte first. -/
def returnFromVector (s : State) : State :=
  let status := s.pull
  let target := (status.2.setP status.1).pullAddr
  target.2.setPc target.1

end State

end Sys2Proof.Machine
end

