-- ==== Sys2Proof/Machine/Operands.lean ====
section
/-! DEFINITION. Every operand form: the effective address of each mode (30_encoding.md rules R78 to R80)
and the helpers Load, Store and RMW (41_arith_compare_shift.md rule R140). The operand bytes have been
consumed before these run. -/

namespace Sys2Proof

open Machine

/-- Rule R79: the address of a zero-page pointer's high byte, wrapping within the page. -/
def zpPointerHi (p : Byte) : Addr := zext16 (p + 1)

/-- `EA(mode)` (rules R78 and R140), with the state after the pointer reads of the indirect modes. -/
def MemMode.resolve (m : MemMode) (s : State) : Addr × State :=
  match m with
  | .zp z => (zext16 z, s)
  | .zpx z => (zext16 (z + s.x), s)
  | .zpy z => (zext16 (z + s.y), s)
  | .abs base => (base, s)
  | .abx base => (base + zext16 s.x, s)
  | .aby base => (base + zext16 s.y, s)
  | .izx z => s.readPair (zext16 (z + s.x)) (zpPointerHi (z + s.x))
  | .izy z =>
    let r := s.readPair (zext16 z) (zpPointerHi z)
    (r.1 + zext16 s.y, r.2)
  | .izp z => s.readPair (zext16 z) (zpPointerHi z)

/-- The effective address alone. -/
def MemMode.address (m : MemMode) (s : State) : Addr := (m.resolve s).1

/-- `Load(mode)` (rule R140). -/
def Source.load (src : Source) (s : State) : Byte × State :=
  match src with
  | .imm b => (b, s)
  | .mem m =>
    let r := m.resolve s
    r.2.busRead r.1

/-- The operand's value alone. -/
def Source.value (src : Source) (s : State) : Byte := (src.load s).1

/-- `Store(mode, v)` (rule R140). -/
def MemMode.store (m : MemMode) (v : Byte) (s : State) : State :=
  let r := m.resolve s
  r.2.busWrite r.1 v

/-- The memory form of `RMW(mode, f)` (rule R140): `f` gives the new byte and the new status from the old
ones. -/
def MemMode.modify (m : MemMode) (f : Byte → Byte → Byte × Byte) (s : State) : State :=
  let r := m.resolve s
  let v := r.2.busRead r.1
  let n := f v.1 s.p
  (v.2.busWrite r.1 n.1).setP n.2

/-- `RMW(mode, f)` (rule R140). -/
def RmwTarget.modify (t : RmwTarget) (f : Byte → Byte → Byte × Byte) (s : State) : State :=
  match t with
  | .acc => (s.setA (f s.a s.p).1).setP (f s.a s.p).2
  | .mem m => m.modify f s

/-- The value a read-modify-write instruction starts from. -/
def RmwTarget.value (t : RmwTarget) (s : State) : Byte :=
  match t with
  | .acc => s.a
  | .mem m => s.mem.read (m.address s)

/-- The target of a JMP (rules R78, R80 and R221), with the state after the pointer reads. -/
def JumpTarget.resolve (t : JumpTarget) (s : State) : Addr × State :=
  match t with
  | .abs a => (a, s)
  | .ind a => s.readPair a (a + 1)
  | .iax a => s.readPair (a + zext16 s.x) (a + zext16 s.x + 1)

/-- The target address alone. -/
def JumpTarget.address (t : JumpTarget) (s : State) : Addr := (t.resolve s).1

end Sys2Proof
end

