-- ==== Sys2Proof/Machine/Arith.lean ====
section
/-! DEFINITION. Arithmetic, compare and shift (41_arith_compare_shift.md rules R141 to R150). -/

namespace Sys2Proof.Machine

open State

namespace State

/-- Rules R141 and R143: `m` and C added to A, in decimal where D is set (which uses up a draw). -/
def addWithCarry (m : Byte) (s : State) : State :=
  if s.flag .D then
    let r := Alu.addDecimal s.draws s.a m s.p
    { s with a := r.1, p := r.2, draws := s.draws + 1 }
  else
    let r := Alu.addBinary s.a m s.p
    { s with a := r.1, p := r.2 }

/-- Rules R142 and R143: `m` and the borrow taken from A, in decimal where D is set (which uses up a
draw). -/
def subtractWithBorrow (m : Byte) (s : State) : State :=
  if s.flag .D then
    let r := Alu.subDecimal s.draws s.a m s.p
    { s with a := r.1, p := r.2, draws := s.draws + 1 }
  else
    let r := Alu.subBinary s.a m s.p
    { s with a := r.1, p := r.2 }

end State

/-- ADC (rule R141). -/
def execAdc (src : Source) (s : State) : Out :=
  withOperands src.bytes s fun s =>
    let m := src.load s
    m.2.addWithCarry m.1

/-- SBC (rule R142). -/
def execSbc (src : Source) (s : State) : Out :=
  withOperands src.bytes s fun s =>
    let m := src.load s
    m.2.subtractWithBorrow m.1

/-- CMP (rule R144). -/
def execCmp (src : Source) (s : State) : Out :=
  withOperands src.bytes s fun s =>
    let m := src.load s
    m.2.setP (Alu.compare s.a m.1 s.p)

/-- CPX (rule R145). -/
def execCpx (src : Source) (s : State) : Out :=
  withOperands src.bytes s fun s =>
    let m := src.load s
    m.2.setP (Alu.compare s.x m.1 s.p)

/-- CPY (rule R146). -/
def execCpy (src : Source) (s : State) : Out :=
  withOperands src.bytes s fun s =>
    let m := src.load s
    m.2.setP (Alu.compare s.y m.1 s.p)

/-- ASL (rule R147). -/
def execAsl (t : RmwTarget) (s : State) : Out :=
  withOperands t.bytes s fun s => t.modify Alu.asl s

/-- LSR (rule R148). -/
def execLsr (t : RmwTarget) (s : State) : Out :=
  withOperands t.bytes s fun s => t.modify Alu.lsr s

/-- ROL (rule R149). -/
def execRol (t : RmwTarget) (s : State) : Out :=
  withOperands t.bytes s fun s => t.modify Alu.rol s

/-- ROR (rule R150). -/
def execRor (t : RmwTarget) (s : State) : Out :=
  withOperands t.bytes s fun s => t.modify Alu.ror s

end Sys2Proof.Machine
end

