-- ==== Sys2Proof/Machine/Branch.lean ====
section
/-! DEFINITION. Branches (43_logical_branch_jump.md rules R209 to R220). A branch never writes pc; it leaves the
displacement for RESOLVE_PC. -/

namespace Sys2Proof.Machine

open State

namespace State

/-- Rules R219 and R220: the branch on bit n of a zero-page byte being `want`. -/
def branchOnMemoryBit (n : Nat) (want : Bool) (z rel : Byte) (s : State) : State :=
  let v := s.busRead (zext16 z)
  v.2.branchIf (v.1.getLsbD n == want) rel

end State

/-- BPL (rule R210). -/
def execBpl (rel : Byte) (s : State) : Out :=
  withOperands [rel] s fun s => s.branchIf (!s.flag .N) rel

/-- BMI (rule R211). -/
def execBmi (rel : Byte) (s : State) : Out :=
  withOperands [rel] s fun s => s.branchIf (s.flag .N) rel

/-- BVC (rule R212). -/
def execBvc (rel : Byte) (s : State) : Out :=
  withOperands [rel] s fun s => s.branchIf (!s.flag .V) rel

/-- BVS (rule R213). -/
def execBvs (rel : Byte) (s : State) : Out :=
  withOperands [rel] s fun s => s.branchIf (s.flag .V) rel

/-- BCC (rule R214). -/
def execBcc (rel : Byte) (s : State) : Out :=
  withOperands [rel] s fun s => s.branchIf (!s.flag .C) rel

/-- BCS (rule R215). -/
def execBcs (rel : Byte) (s : State) : Out :=
  withOperands [rel] s fun s => s.branchIf (s.flag .C) rel

/-- BNE (rule R216). -/
def execBne (rel : Byte) (s : State) : Out :=
  withOperands [rel] s fun s => s.branchIf (!s.flag .Z) rel

/-- BEQ (rule R217). -/
def execBeq (rel : Byte) (s : State) : Out :=
  withOperands [rel] s fun s => s.branchIf (s.flag .Z) rel

/-- BRA (rule R218). -/
def execBra (rel : Byte) (s : State) : Out :=
  withOperands [rel] s fun s => s.branchIf true rel

/-- BBR0 (rule R219). -/
def execBbr0 (z rel : Byte) (s : State) : Out :=
  withOperands [z, rel] s (branchOnMemoryBit 0 false z rel)

/-- BBR1 (rule R219). -/
def execBbr1 (z rel : Byte) (s : State) : Out :=
  withOperands [z, rel] s (branchOnMemoryBit 1 false z rel)

/-- BBR2 (rule R219). -/
def execBbr2 (z rel : Byte) (s : State) : Out :=
  withOperands [z, rel] s (branchOnMemoryBit 2 false z rel)

/-- BBR3 (rule R219). -/
def execBbr3 (z rel : Byte) (s : State) : Out :=
  withOperands [z, rel] s (branchOnMemoryBit 3 false z rel)

/-- BBR4 (rule R219). -/
def execBbr4 (z rel : Byte) (s : State) : Out :=
  withOperands [z, rel] s (branchOnMemoryBit 4 false z rel)

/-- BBR5 (rule R219). -/
def execBbr5 (z rel : Byte) (s : State) : Out :=
  withOperands [z, rel] s (branchOnMemoryBit 5 false z rel)

/-- BBR6 (rule R219). -/
def execBbr6 (z rel : Byte) (s : State) : Out :=
  withOperands [z, rel] s (branchOnMemoryBit 6 false z rel)

/-- BBR7 (rule R219). -/
def execBbr7 (z rel : Byte) (s : State) : Out :=
  withOperands [z, rel] s (branchOnMemoryBit 7 false z rel)

/-- BBS0 (rule R220). -/
def execBbs0 (z rel : Byte) (s : State) : Out :=
  withOperands [z, rel] s (branchOnMemoryBit 0 true z rel)

/-- BBS1 (rule R220). -/
def execBbs1 (z rel : Byte) (s : State) : Out :=
  withOperands [z, rel] s (branchOnMemoryBit 1 true z rel)

/-- BBS2 (rule R220). -/
def execBbs2 (z rel : Byte) (s : State) : Out :=
  withOperands [z, rel] s (branchOnMemoryBit 2 true z rel)

/-- BBS3 (rule R220). -/
def execBbs3 (z rel : Byte) (s : State) : Out :=
  withOperands [z, rel] s (branchOnMemoryBit 3 true z rel)

/-- BBS4 (rule R220). -/
def execBbs4 (z rel : Byte) (s : State) : Out :=
  withOperands [z, rel] s (branchOnMemoryBit 4 true z rel)

/-- BBS5 (rule R220). -/
def execBbs5 (z rel : Byte) (s : State) : Out :=
  withOperands [z, rel] s (branchOnMemoryBit 5 true z rel)

/-- BBS6 (rule R220). -/
def execBbs6 (z rel : Byte) (s : State) : Out :=
  withOperands [z, rel] s (branchOnMemoryBit 6 true z rel)

/-- BBS7 (rule R220). -/
def execBbs7 (z rel : Byte) (s : State) : Out :=
  withOperands [z, rel] s (branchOnMemoryBit 7 true z rel)

end Sys2Proof.Machine
end

