-- ==== Sys2Proof/Machine/FlagIncDec.lean ====
section
/-! DEFINITION. Flag instructions, increments and decrements (44_flags_incdec_intctl.md rules R230 to R243). -/

namespace Sys2Proof.Machine

open State

/-- CLC (rule R231). -/
def execClc (s : State) : Out := .next (s.setFlag .C false)

/-- SEC (rule R232). -/
def execSec (s : State) : Out := .next (s.setFlag .C true)

/-- CLI (rule R233). -/
def execCli (s : State) : Out := .next (s.setFlag .I false)

/-- SEI (rule R234). -/
def execSei (s : State) : Out := .next (s.setFlag .I true)

/-- CLD (rule R235). -/
def execCld (s : State) : Out := .next (s.setFlag .D false)

/-- SED (rule R236). -/
def execSed (s : State) : Out := .next (s.setFlag .D true)

/-- CLV (rule R237). -/
def execClv (s : State) : Out := .next (s.setFlag .V false)

/-- INC (rule R238). -/
def execInc (t : RmwTarget) (s : State) : Out :=
  withOperands t.bytes s fun s => t.modify Alu.inc s

/-- DEC (rule R239). -/
def execDec (t : RmwTarget) (s : State) : Out :=
  withOperands t.bytes s fun s => t.modify Alu.dec s

/-- INX (rule R240). -/
def execInx (s : State) : Out := .next ((s.setX (s.x + 1)).setNZ (s.x + 1))

/-- INY (rule R241). -/
def execIny (s : State) : Out := .next ((s.setY (s.y + 1)).setNZ (s.y + 1))

/-- DEX (rule R242). -/
def execDex (s : State) : Out := .next ((s.setX (s.x - 1)).setNZ (s.x - 1))

/-- DEY (rule R243). -/
def execDey (s : State) : Out := .next ((s.setY (s.y - 1)).setNZ (s.y - 1))

end Sys2Proof.Machine
end

