-- ==== Sys2Proof/Machine/IntCtl.lean ====
section
/-! DEFINITION. Interrupt control, no-op and the unmapped bytes (44_flags_incdec_intctl.md rules R244 to R249). -/

namespace Sys2Proof.Machine

open State

/-- BRK (rule R244): the signature byte is consumed and discarded; P is pushed with B and U set, I is set,
D is cleared and the pc goes to the vector. -/
def execBrk (sig : Byte) (s : State) : Out :=
  withOperands [sig] s fun s =>
    (s.enterVector (s.pcAtFetch + 2) (s.p ||| Status.pushedBreakBits)).setFlag .D false

/-- RTI (rule R245). -/
def execRti (s : State) : Out := .next s.returnFromVector

/-- WAI (rule R246): WAIT is set and nothing else; the dispatch loop does the waiting. -/
def execWai (s : State) : Out := .next { s with wait := true }

/-- STP (rule R247): the handler returns `halt`, which is the move to HALT_FLUSH (rule R100). -/
def execStp (s : State) : Out := .next { s with phase := .haltFlush }

/-- NOP (rule R248). -/
def execNop (s : State) : Out := .next s

/-- A byte outside the mapped set (rule R249): no `Fetch()`, no access, no write. -/
def execUnmapped (_op : Byte) (s : State) : Out := .next s

end Sys2Proof.Machine
end

