-- ==== Sys2Proof/Machine/Jump.lean ====
section
/-! DEFINITION. Jumps (43_logical_branch_jump.md rules R221 to R223): the absolute transfers that only move the pc
and the stack. -/

namespace Sys2Proof.Machine

open State

/-- JMP (rule R221). -/
def execJmp (t : JumpTarget) (s : State) : Out :=
  withOperands t.bytes s fun s =>
    let r := t.resolve s
    r.2.setPc r.1

/-- JSR (rule R222): the address of the JSR's last byte is pushed. -/
def execJsr (target : Addr) (s : State) : Out :=
  withOperands (wordBytes target) s fun s => (s.pushAddr (s.pcAtFetch + 2)).setPc target

/-- RTS (rule R223): one past the pulled address. -/
def execRts (s : State) : Out := .next (s.pullAddr.2.setPc (s.pullAddr.1 + 1))

end Sys2Proof.Machine
end

