-- ==== Sys2Proof/Machine/LoadStore.lean ====
section
/-! DEFINITION. Loads, stores, stack and transfers (42_loadstore_stack_transfer.md rules R171 to R191). -/

namespace Sys2Proof.Machine

open State

/-- LDA (rule R171). -/
def execLda (src : Source) (s : State) : Out :=
  withOperands src.bytes s fun s =>
    let m := src.load s
    (m.2.setA m.1).setNZ m.1

/-- LDX (rule R172). -/
def execLdx (src : Source) (s : State) : Out :=
  withOperands src.bytes s fun s =>
    let m := src.load s
    (m.2.setX m.1).setNZ m.1

/-- LDY (rule R173). -/
def execLdy (src : Source) (s : State) : Out :=
  withOperands src.bytes s fun s =>
    let m := src.load s
    (m.2.setY m.1).setNZ m.1

/-- STA (rule R174). -/
def execSta (m : MemMode) (s : State) : Out :=
  withOperands m.bytes s fun s => m.store s.a s

/-- STX (rule R175). -/
def execStx (m : MemMode) (s : State) : Out :=
  withOperands m.bytes s fun s => m.store s.x s

/-- STY (rule R176). -/
def execSty (m : MemMode) (s : State) : Out :=
  withOperands m.bytes s fun s => m.store s.y s

/-- STZ (rule R177). -/
def execStz (m : MemMode) (s : State) : Out :=
  withOperands m.bytes s fun s => m.store 0x00#8 s

/-- PHA (rule R178). -/
def execPha (s : State) : Out := .next (s.push s.a)

/-- PHP: the pushed copy has B and U set (rule R179). -/
def execPhp (s : State) : Out := .next (s.push (s.p ||| Status.pushedBreakBits))

/-- PHX (rule R180). -/
def execPhx (s : State) : Out := .next (s.push s.x)

/-- PHY (rule R181). -/
def execPhy (s : State) : Out := .next (s.push s.y)

/-- PLA (rule R182). -/
def execPla (s : State) : Out := .next ((s.pull.2.setA s.pull.1).setNZ s.pull.1)

/-- PLP: all eight bits (rule R183). -/
def execPlp (s : State) : Out := .next (s.pull.2.setP s.pull.1)

/-- PLX (rule R184). -/
def execPlx (s : State) : Out := .next ((s.pull.2.setX s.pull.1).setNZ s.pull.1)

/-- PLY (rule R185). -/
def execPly (s : State) : Out := .next ((s.pull.2.setY s.pull.1).setNZ s.pull.1)

/-- TAX (rule R186). -/
def execTax (s : State) : Out := .next ((s.setX s.a).setNZ s.a)

/-- TAY (rule R187). -/
def execTay (s : State) : Out := .next ((s.setY s.a).setNZ s.a)

/-- TSX (rule R188). -/
def execTsx (s : State) : Out := .next ((s.setX s.sp).setNZ s.sp)

/-- TXA (rule R189). -/
def execTxa (s : State) : Out := .next ((s.setA s.x).setNZ s.x)

/-- TXS: no flags (rule R190). -/
def execTxs (s : State) : Out := .next (s.setSp s.x)

/-- TYA (rule R191). -/
def execTya (s : State) : Out := .next ((s.setA s.y).setNZ s.y)

end Sys2Proof.Machine
end

