-- ==== Sys2Proof/Machine/Logical.lean ====
section
/-! DEFINITION. Logical and bit operations (43_logical_branch_jump.md rules R200 to R208). -/

namespace Sys2Proof.Machine

open State

namespace State

/-- A logical result in A, with N and Z from it (rules R201 to R203). -/
def setLogical (r : Byte) (s : State) : State := (s.setA r).setNZ r

/-- Rule R204: BIT of an operand in the given mode. -/
def testBits (src : Source) (m : Byte) (s : State) : State :=
  match src with
  | .imm _ => s.setP (Alu.bitImmediate s.a m s.p)
  | .mem _ => s.setP (Alu.bitMemory s.a m s.p)

/-- Rule R207: bit n of a zero-page byte reset. -/
def resetMemoryBit (n : Nat) (z : Byte) (s : State) : State :=
  let v := s.busRead (zext16 z)
  v.2.busWrite (zext16 z) (Alu.resetBit n v.1)

/-- Rule R208: bit n of a zero-page byte set. -/
def setMemoryBit (n : Nat) (z : Byte) (s : State) : State :=
  let v := s.busRead (zext16 z)
  v.2.busWrite (zext16 z) (Alu.setBit n v.1)

end State

/-- AND (rule R201). -/
def execAnd (src : Source) (s : State) : Out :=
  withOperands src.bytes s fun s =>
    let m := src.load s
    m.2.setLogical (s.a &&& m.1)

/-- EOR (rule R202). -/
def execEor (src : Source) (s : State) : Out :=
  withOperands src.bytes s fun s =>
    let m := src.load s
    m.2.setLogical (s.a ^^^ m.1)

/-- ORA (rule R203). -/
def execOra (src : Source) (s : State) : Out :=
  withOperands src.bytes s fun s =>
    let m := src.load s
    m.2.setLogical (s.a ||| m.1)

/-- BIT (rule R204). -/
def execBit (src : Source) (s : State) : Out :=
  withOperands src.bytes s fun s =>
    let m := src.load s
    m.2.testBits src m.1

/-- TSB (rule R205). -/
def execTsb (m : MemMode) (s : State) : Out :=
  withOperands m.bytes s fun s => m.modify (Alu.tsb s.a) s

/-- TRB (rule R206). -/
def execTrb (m : MemMode) (s : State) : Out :=
  withOperands m.bytes s fun s => m.modify (Alu.trb s.a) s

/-- RMB0 (rule R207). -/
def execRmb0 (z : Byte) (s : State) : Out := withOperands [z] s (resetMemoryBit 0 z)

/-- RMB1 (rule R207). -/
def execRmb1 (z : Byte) (s : State) : Out := withOperands [z] s (resetMemoryBit 1 z)

/-- RMB2 (rule R207). -/
def execRmb2 (z : Byte) (s : State) : Out := withOperands [z] s (resetMemoryBit 2 z)

/-- RMB3 (rule R207). -/
def execRmb3 (z : Byte) (s : State) : Out := withOperands [z] s (resetMemoryBit 3 z)

/-- RMB4 (rule R207). -/
def execRmb4 (z : Byte) (s : State) : Out := withOperands [z] s (resetMemoryBit 4 z)

/-- RMB5 (rule R207). -/
def execRmb5 (z : Byte) (s : State) : Out := withOperands [z] s (resetMemoryBit 5 z)

/-- RMB6 (rule R207). -/
def execRmb6 (z : Byte) (s : State) : Out := withOperands [z] s (resetMemoryBit 6 z)

/-- RMB7 (rule R207). -/
def execRmb7 (z : Byte) (s : State) : Out := withOperands [z] s (resetMemoryBit 7 z)

/-- SMB0 (rule R208). -/
def execSmb0 (z : Byte) (s : State) : Out := withOperands [z] s (setMemoryBit 0 z)

/-- SMB1 (rule R208). -/
def execSmb1 (z : Byte) (s : State) : Out := withOperands [z] s (setMemoryBit 1 z)

/-- SMB2 (rule R208). -/
def execSmb2 (z : Byte) (s : State) : Out := withOperands [z] s (setMemoryBit 2 z)

/-- SMB3 (rule R208). -/
def execSmb3 (z : Byte) (s : State) : Out := withOperands [z] s (setMemoryBit 3 z)

/-- SMB4 (rule R208). -/
def execSmb4 (z : Byte) (s : State) : Out := withOperands [z] s (setMemoryBit 4 z)

/-- SMB5 (rule R208). -/
def execSmb5 (z : Byte) (s : State) : Out := withOperands [z] s (setMemoryBit 5 z)

/-- SMB6 (rule R208). -/
def execSmb6 (z : Byte) (s : State) : Out := withOperands [z] s (setMemoryBit 6 z)

/-- SMB7 (rule R208). -/
def execSmb7 (z : Byte) (s : State) : Out := withOperands [z] s (setMemoryBit 7 z)

end Sys2Proof.Machine
end

