-- ==== Sys2Proof/Machine/Dispatch.lean ====
section
/-! DEFINITION. DISPATCH (40_dispatch.md rule R106): the handler of each instruction. -/

namespace Sys2Proof.Machine

def exec (i : Instr) (s : State) : Host.Outcome State Fault Refusal :=
  match i with
  | .brk sig => Sys2Proof.Machine.execBrk sig s
  | .ora src => Sys2Proof.Machine.execOra src s
  | .unmapped op => Sys2Proof.Machine.execUnmapped op s
  | .tsb m => Sys2Proof.Machine.execTsb m s
  | .asl t => Sys2Proof.Machine.execAsl t s
  | .rmb0 z => Sys2Proof.Machine.execRmb0 z s
  | .php => Sys2Proof.Machine.execPhp s
  | .bbr0 z rel => Sys2Proof.Machine.execBbr0 z rel s
  | .bpl rel => Sys2Proof.Machine.execBpl rel s
  | .trb m => Sys2Proof.Machine.execTrb m s
  | .rmb1 z => Sys2Proof.Machine.execRmb1 z s
  | .clc => Sys2Proof.Machine.execClc s
  | .inc t => Sys2Proof.Machine.execInc t s
  | .bbr1 z rel => Sys2Proof.Machine.execBbr1 z rel s
  | .jsr target => Sys2Proof.Machine.execJsr target s
  | .and src => Sys2Proof.Machine.execAnd src s
  | .bit src => Sys2Proof.Machine.execBit src s
  | .rol t => Sys2Proof.Machine.execRol t s
  | .rmb2 z => Sys2Proof.Machine.execRmb2 z s
  | .plp => Sys2Proof.Machine.execPlp s
  | .bbr2 z rel => Sys2Proof.Machine.execBbr2 z rel s
  | .bmi rel => Sys2Proof.Machine.execBmi rel s
  | .rmb3 z => Sys2Proof.Machine.execRmb3 z s
  | .sec => Sys2Proof.Machine.execSec s
  | .dec t => Sys2Proof.Machine.execDec t s
  | .bbr3 z rel => Sys2Proof.Machine.execBbr3 z rel s
  | .rti => Sys2Proof.Machine.execRti s
  | .eor src => Sys2Proof.Machine.execEor src s
  | .lsr t => Sys2Proof.Machine.execLsr t s
  | .rmb4 z => Sys2Proof.Machine.execRmb4 z s
  | .pha => Sys2Proof.Machine.execPha s
  | .jmp t => Sys2Proof.Machine.execJmp t s
  | .bbr4 z rel => Sys2Proof.Machine.execBbr4 z rel s
  | .bvc rel => Sys2Proof.Machine.execBvc rel s
  | .rmb5 z => Sys2Proof.Machine.execRmb5 z s
  | .cli => Sys2Proof.Machine.execCli s
  | .phy => Sys2Proof.Machine.execPhy s
  | .bbr5 z rel => Sys2Proof.Machine.execBbr5 z rel s
  | .rts => Sys2Proof.Machine.execRts s
  | .adc src => Sys2Proof.Machine.execAdc src s
  | .stz m => Sys2Proof.Machine.execStz m s
  | .ror t => Sys2Proof.Machine.execRor t s
  | .rmb6 z => Sys2Proof.Machine.execRmb6 z s
  | .pla => Sys2Proof.Machine.execPla s
  | .bbr6 z rel => Sys2Proof.Machine.execBbr6 z rel s
  | .bvs rel => Sys2Proof.Machine.execBvs rel s
  | .rmb7 z => Sys2Proof.Machine.execRmb7 z s
  | .sei => Sys2Proof.Machine.execSei s
  | .ply => Sys2Proof.Machine.execPly s
  | .bbr7 z rel => Sys2Proof.Machine.execBbr7 z rel s
  | .bra rel => Sys2Proof.Machine.execBra rel s
  | .sta m => Sys2Proof.Machine.execSta m s
  | .sty m => Sys2Proof.Machine.execSty m s
  | .stx m => Sys2Proof.Machine.execStx m s
  | .smb0 z => Sys2Proof.Machine.execSmb0 z s
  | .dey => Sys2Proof.Machine.execDey s
  | .txa => Sys2Proof.Machine.execTxa s
  | .bbs0 z rel => Sys2Proof.Machine.execBbs0 z rel s
  | .bcc rel => Sys2Proof.Machine.execBcc rel s
  | .smb1 z => Sys2Proof.Machine.execSmb1 z s
  | .tya => Sys2Proof.Machine.execTya s
  | .txs => Sys2Proof.Machine.execTxs s
  | .bbs1 z rel => Sys2Proof.Machine.execBbs1 z rel s
  | .ldy src => Sys2Proof.Machine.execLdy src s
  | .lda src => Sys2Proof.Machine.execLda src s
  | .ldx src => Sys2Proof.Machine.execLdx src s
  | .smb2 z => Sys2Proof.Machine.execSmb2 z s
  | .tay => Sys2Proof.Machine.execTay s
  | .tax => Sys2Proof.Machine.execTax s
  | .bbs2 z rel => Sys2Proof.Machine.execBbs2 z rel s
  | .bcs rel => Sys2Proof.Machine.execBcs rel s
  | .smb3 z => Sys2Proof.Machine.execSmb3 z s
  | .clv => Sys2Proof.Machine.execClv s
  | .tsx => Sys2Proof.Machine.execTsx s
  | .bbs3 z rel => Sys2Proof.Machine.execBbs3 z rel s
  | .cpy src => Sys2Proof.Machine.execCpy src s
  | .cmp src => Sys2Proof.Machine.execCmp src s
  | .smb4 z => Sys2Proof.Machine.execSmb4 z s
  | .iny => Sys2Proof.Machine.execIny s
  | .dex => Sys2Proof.Machine.execDex s
  | .wai => Sys2Proof.Machine.execWai s
  | .bbs4 z rel => Sys2Proof.Machine.execBbs4 z rel s
  | .bne rel => Sys2Proof.Machine.execBne rel s
  | .smb5 z => Sys2Proof.Machine.execSmb5 z s
  | .cld => Sys2Proof.Machine.execCld s
  | .phx => Sys2Proof.Machine.execPhx s
  | .stp => Sys2Proof.Machine.execStp s
  | .bbs5 z rel => Sys2Proof.Machine.execBbs5 z rel s
  | .cpx src => Sys2Proof.Machine.execCpx src s
  | .sbc src => Sys2Proof.Machine.execSbc src s
  | .smb6 z => Sys2Proof.Machine.execSmb6 z s
  | .inx => Sys2Proof.Machine.execInx s
  | .nop => Sys2Proof.Machine.execNop s
  | .bbs6 z rel => Sys2Proof.Machine.execBbs6 z rel s
  | .beq rel => Sys2Proof.Machine.execBeq rel s
  | .smb7 z => Sys2Proof.Machine.execSmb7 z s
  | .sed => Sys2Proof.Machine.execSed s
  | .plx => Sys2Proof.Machine.execPlx s
  | .bbs7 z rel => Sys2Proof.Machine.execBbs7 z rel s

end Sys2Proof.Machine
end

