-- ==== Sys2Proof/WellFormed.lean ====
section
/-! DEFINITION. Which terms of `Instr` are instructions: the ones whose addressing mode the opcode map
of rule R82 (30_encoding.md) gives the mnemonic, and unmapped bytes that rule R83 lists. -/

namespace Sys2Proof

namespace Instr

/-- Rule R82: the modes with an entry in the opcode map, for each mnemonic. -/
def legalModes : Instr → List Mode
  | .ora _ | .and _ | .eor _ | .adc _ | .lda _ | .cmp _ | .sbc _ =>
      [.imm, .zp, .zpx, .abs, .abx, .aby, .izx, .izy, .izp]
  | .tsb _ | .trb _ =>
      [.zp, .abs]
  | .asl _ | .inc _ | .rol _ | .dec _ | .lsr _ | .ror _ =>
      [.zp, .zpx, .abs, .abx, .acc]
  | .bit _ | .ldy _ =>
      [.imm, .zp, .zpx, .abs, .abx]
  | .jmp _ =>
      [.abs, .ind, .iax]
  | .stz _ =>
      [.zp, .zpx, .abs, .abx]
  | .sta _ =>
      [.zp, .zpx, .abs, .abx, .aby, .izx, .izy, .izp]
  | .sty _ =>
      [.zp, .zpx, .abs]
  | .stx _ =>
      [.zp, .zpy, .abs]
  | .ldx _ =>
      [.imm, .zp, .zpy, .abs, .aby]
  | .cpy _ | .cpx _ =>
      [.imm, .zp, .abs]
  | .jsr _ => [.abs]
  | .bpl _ | .bmi _ | .bvc _ | .bvs _ | .bra _ | .bcc _ | .bcs _ | .bne _ | .beq _ => [.rel]
  | .rmb0 _ | .rmb1 _ | .rmb2 _ | .rmb3 _ | .rmb4 _ | .rmb5 _ | .rmb6 _ | .rmb7 _ | .smb0 _
  | .smb1 _ | .smb2 _ | .smb3 _ | .smb4 _ | .smb5 _ | .smb6 _ | .smb7 _ => [.zp]
  | .bbr0 _ _ | .bbr1 _ _ | .bbr2 _ _ | .bbr3 _ _ | .bbr4 _ _ | .bbr5 _ _ | .bbr6 _ _
  | .bbr7 _ _ | .bbs0 _ _ | .bbs1 _ _ | .bbs2 _ _ | .bbs3 _ _ | .bbs4 _ _ | .bbs5 _ _
  | .bbs6 _ _ | .bbs7 _ _ => [.zpr]
  | .brk _ => [.brk]
  | .unmapped _ => [.imp]
  | .php | .clc | .plp | .sec | .rti | .pha | .cli | .phy | .rts | .pla | .sei | .ply
  | .dey | .txa | .tya | .txs | .tay | .tax | .clv | .tsx | .iny | .dex | .wai | .cld
  | .phx | .stp | .inx | .nop | .sed | .plx => [.imp]

/-- Check 1 (rule R82): the map has an entry for this mnemonic in this mode. -/
def modeOk (i : Instr) : Bool := i.legalModes.contains i.mode

/-- Check 2 (rule R83): an unmapped byte is outside the mapped set. -/
def unmappedOk : Instr → Bool
  | .unmapped op => !Config.mapped op
  | _ => true

/-- The instructions that exist. -/
abbrev WellFormed (i : Instr) : Prop := i.modeOk = true ∧ i.unmappedOk = true

end Instr

end Sys2Proof
end

