-- ==== Sys2Proof/Decode.lean ====
section
/-! DEFINITION. Decoding and encoding. The decoder is written from the opcode map of rule R82
(30_encoding.md), the encoder from the opcode lists that the rules of files 41 to 44 give each
instruction, so that a slip in either shows when the two are held together. -/

namespace Sys2Proof

/-! ### Lengths, classes and categories -/

/-- Rule R78, rule R76: the encoded length L of each mode, opcode byte included. -/
def Mode.length : Mode → Nat
  | .imp | .acc => 1
  | .imm | .zp | .zpx | .zpy | .izx | .izy | .izp | .rel | .brk => 2
  | .abs | .abx | .aby | .ind | .iax | .zpr => 3

/-- Rules R76 and R88: the encoded length L. -/
def Instr.length (i : Instr) : Nat := i.mode.length

/-- Rule R87: the class of each instruction. -/
def Instr.pcClass : Instr → PcClass
  | .jmp _ | .jsr _ | .brk _ | .rts | .rti => .absolute
  | .bpl _ | .bmi _ | .bvc _ | .bvs _ | .bra _ | .bcc _ | .bcs _ | .bne _ | .beq _ => .relative
  | .bbr0 _ _ | .bbr1 _ _ | .bbr2 _ _ | .bbr3 _ _ | .bbr4 _ _ | .bbr5 _ _ | .bbr6 _ _
  | .bbr7 _ _ | .bbs0 _ _ | .bbs1 _ _ | .bbs2 _ _ | .bbs3 _ _ | .bbs4 _ _ | .bbs5 _ _
  | .bbs6 _ _ | .bbs7 _ _ => .relative
  | .ora _ | .and _ | .bit _ | .eor _ | .adc _ | .ldy _ | .lda _ | .ldx _ | .cpy _ | .cmp _
  | .cpx _ | .sbc _ => .sequential
  | .tsb _ | .trb _ | .stz _ | .sta _ | .sty _ | .stx _ => .sequential
  | .asl _ | .inc _ | .rol _ | .dec _ | .lsr _ | .ror _ => .sequential
  | .rmb0 _ | .rmb1 _ | .rmb2 _ | .rmb3 _ | .rmb4 _ | .rmb5 _ | .rmb6 _ | .rmb7 _ | .smb0 _
  | .smb1 _ | .smb2 _ | .smb3 _ | .smb4 _ | .smb5 _ | .smb6 _ | .smb7 _ => .sequential
  | .unmapped _ => .sequential
  | .php | .clc | .plp | .sec | .pha | .cli | .phy | .pla | .sei | .ply | .dey | .txa
  | .tya | .txs | .tay | .tax | .clv | .tsx | .iny | .dex | .cld | .phx | .inx | .nop
  | .sed | .plx => .sequential
  | .wai => .wait
  | .stp => .halt

/-- Rule R86: the category of each instruction. -/
def Instr.category : Instr → Category
  | .adc _ | .sbc _ => .arithmetic
  | .cmp _ | .cpx _ | .cpy _ => .compare
  | .asl _ | .lsr _ | .rol _ | .ror _ => .shift
  | .lda _ | .ldx _ | .ldy _ | .sta _ | .stx _ | .sty _ | .stz _ => .loadStore
  | .pha | .php | .phx | .phy | .pla | .plp | .plx | .ply => .stack
  | .tax | .tay | .tsx | .txa | .txs | .tya => .transfer
  | .and _ | .eor _ | .ora _ | .bit _ | .tsb _ | .trb _ | .rmb0 _ | .rmb1 _ | .rmb2 _
  | .rmb3 _ | .rmb4 _ | .rmb5 _ | .rmb6 _ | .rmb7 _ | .smb0 _ | .smb1 _ | .smb2 _ | .smb3 _
  | .smb4 _ | .smb5 _ | .smb6 _ | .smb7 _ => .logical
  | .bpl _ | .bmi _ | .bvc _ | .bvs _ | .bcc _ | .bcs _ | .bne _ | .beq _ | .bra _
  | .bbr0 _ _ | .bbr1 _ _ | .bbr2 _ _ | .bbr3 _ _ | .bbr4 _ _ | .bbr5 _ _ | .bbr6 _ _
  | .bbr7 _ _ | .bbs0 _ _ | .bbs1 _ _ | .bbs2 _ _ | .bbs3 _ _ | .bbs4 _ _ | .bbs5 _ _
  | .bbs6 _ _ | .bbs7 _ _ => .branch
  | .jmp _ | .jsr _ | .rts => .jump
  | .clc | .sec | .cli | .sei | .cld | .sed | .clv => .flags
  | .inc _ | .dec _ | .inx | .iny | .dex | .dey => .incDec
  | .brk _ | .rti | .wai | .stp => .interruptControl
  | .nop | .unmapped _ => .noOp

/-! ### The decoder -/

namespace Decode

/-- Rule R82, row 0x. -/
def mapRow0 (op b1 b2 : Byte) : Nat → Instr
  | 0x0 => .brk b1
  | 0x1 => .ora (.mem (.izx b1))
  | 0x4 => .tsb (.zp b1)
  | 0x5 => .ora (.mem (.zp b1))
  | 0x6 => .asl (.mem (.zp b1))
  | 0x7 => .rmb0 b1
  | 0x8 => .php
  | 0x9 => .ora (.imm b1)
  | 0xA => .asl .acc
  | 0xC => .tsb (.abs (word b1 b2))
  | 0xD => .ora (.mem (.abs (word b1 b2)))
  | 0xE => .asl (.mem (.abs (word b1 b2)))
  | 0xF => .bbr0 b1 b2
  | _ => .unmapped op

/-- Rule R82, row 1x. -/
def mapRow1 (op b1 b2 : Byte) : Nat → Instr
  | 0x0 => .bpl b1
  | 0x1 => .ora (.mem (.izy b1))
  | 0x2 => .ora (.mem (.izp b1))
  | 0x4 => .trb (.zp b1)
  | 0x5 => .ora (.mem (.zpx b1))
  | 0x6 => .asl (.mem (.zpx b1))
  | 0x7 => .rmb1 b1
  | 0x8 => .clc
  | 0x9 => .ora (.mem (.aby (word b1 b2)))
  | 0xA => .inc .acc
  | 0xC => .trb (.abs (word b1 b2))
  | 0xD => .ora (.mem (.abx (word b1 b2)))
  | 0xE => .asl (.mem (.abx (word b1 b2)))
  | 0xF => .bbr1 b1 b2
  | _ => .unmapped op

/-- Rule R82, row 2x. -/
def mapRow2 (op b1 b2 : Byte) : Nat → Instr
  | 0x0 => .jsr (word b1 b2)
  | 0x1 => .and (.mem (.izx b1))
  | 0x4 => .bit (.mem (.zp b1))
  | 0x5 => .and (.mem (.zp b1))
  | 0x6 => .rol (.mem (.zp b1))
  | 0x7 => .rmb2 b1
  | 0x8 => .plp
  | 0x9 => .and (.imm b1)
  | 0xA => .rol .acc
  | 0xC => .bit (.mem (.abs (word b1 b2)))
  | 0xD => .and (.mem (.abs (word b1 b2)))
  | 0xE => .rol (.mem (.abs (word b1 b2)))
  | 0xF => .bbr2 b1 b2
  | _ => .unmapped op

/-- Rule R82, row 3x. -/
def mapRow3 (op b1 b2 : Byte) : Nat → Instr
  | 0x0 => .bmi b1
  | 0x1 => .and (.mem (.izy b1))
  | 0x2 => .and (.mem (.izp b1))
  | 0x4 => .bit (.mem (.zpx b1))
  | 0x5 => .and (.mem (.zpx b1))
  | 0x6 => .rol (.mem (.zpx b1))
  | 0x7 => .rmb3 b1
  | 0x8 => .sec
  | 0x9 => .and (.mem (.aby (word b1 b2)))
  | 0xA => .dec .acc
  | 0xC => .bit (.mem (.abx (word b1 b2)))
  | 0xD => .and (.mem (.abx (word b1 b2)))
  | 0xE => .rol (.mem (.abx (word b1 b2)))
  | 0xF => .bbr3 b1 b2
  | _ => .unmapped op

/-- Rule R82, row 4x. -/
def mapRow4 (op b1 b2 : Byte) : Nat → Instr
  | 0x0 => .rti
  | 0x1 => .eor (.mem (.izx b1))
  | 0x5 => .eor (.mem (.zp b1))
  | 0x6 => .lsr (.mem (.zp b1))
  | 0x7 => .rmb4 b1
  | 0x8 => .pha
  | 0x9 => .eor (.imm b1)
  | 0xA => .lsr .acc
  | 0xC => .jmp (.abs (word b1 b2))
  | 0xD => .eor (.mem (.abs (word b1 b2)))
  | 0xE => .lsr (.mem (.abs (word b1 b2)))
  | 0xF => .bbr4 b1 b2
  | _ => .unmapped op

/-- Rule R82, row 5x. -/
def mapRow5 (op b1 b2 : Byte) : Nat → Instr
  | 0x0 => .bvc b1
  | 0x1 => .eor (.mem (.izy b1))
  | 0x2 => .eor (.mem (.izp b1))
  | 0x5 => .eor (.mem (.zpx b1))
  | 0x6 => .lsr (.mem (.zpx b1))
  | 0x7 => .rmb5 b1
  | 0x8 => .cli
  | 0x9 => .eor (.mem (.aby (word b1 b2)))
  | 0xA => .phy
  | 0xD => .eor (.mem (.abx (word b1 b2)))
  | 0xE => .lsr (.mem (.abx (word b1 b2)))
  | 0xF => .bbr5 b1 b2
  | _ => .unmapped op

/-- Rule R82, row 6x. -/
def mapRow6 (op b1 b2 : Byte) : Nat → Instr
  | 0x0 => .rts
  | 0x1 => .adc (.mem (.izx b1))
  | 0x4 => .stz (.zp b1)
  | 0x5 => .adc (.mem (.zp b1))
  | 0x6 => .ror (.mem (.zp b1))
  | 0x7 => .rmb6 b1
  | 0x8 => .pla
  | 0x9 => .adc (.imm b1)
  | 0xA => .ror .acc
  | 0xC => .jmp (.ind (word b1 b2))
  | 0xD => .adc (.mem (.abs (word b1 b2)))
  | 0xE => .ror (.mem (.abs (word b1 b2)))
  | 0xF => .bbr6 b1 b2
  | _ => .unmapped op

/-- Rule R82, row 7x. -/
def mapRow7 (op b1 b2 : Byte) : Nat → Instr
  | 0x0 => .bvs b1
  | 0x1 => .adc (.mem (.izy b1))
  | 0x2 => .adc (.mem (.izp b1))
  | 0x4 => .stz (.zpx b1)
  | 0x5 => .adc (.mem (.zpx b1))
  | 0x6 => .ror (.mem (.zpx b1))
  | 0x7 => .rmb7 b1
  | 0x8 => .sei
  | 0x9 => .adc (.mem (.aby (word b1 b2)))
  | 0xA => .ply
  | 0xC => .jmp (.iax (word b1 b2))
  | 0xD => .adc (.mem (.abx (word b1 b2)))
  | 0xE => .ror (.mem (.abx (word b1 b2)))
  | 0xF => .bbr7 b1 b2
  | _ => .unmapped op

/-- Rule R82, row 8x. -/
def mapRow8 (op b1 b2 : Byte) : Nat → Instr
  | 0x0 => .bra b1
  | 0x1 => .sta (.izx b1)
  | 0x4 => .sty (.zp b1)
  | 0x5 => .sta (.zp b1)
  | 0x6 => .stx (.zp b1)
  | 0x7 => .smb0 b1
  | 0x8 => .dey
  | 0x9 => .bit (.imm b1)
  | 0xA => .txa
  | 0xC => .sty (.abs (word b1 b2))
  | 0xD => .sta (.abs (word b1 b2))
  | 0xE => .stx (.abs (word b1 b2))
  | 0xF => .bbs0 b1 b2
  | _ => .unmapped op

/-- Rule R82, row 9x. -/
def mapRow9 (op b1 b2 : Byte) : Nat → Instr
  | 0x0 => .bcc b1
  | 0x1 => .sta (.izy b1)
  | 0x2 => .sta (.izp b1)
  | 0x4 => .sty (.zpx b1)
  | 0x5 => .sta (.zpx b1)
  | 0x6 => .stx (.zpy b1)
  | 0x7 => .smb1 b1
  | 0x8 => .tya
  | 0x9 => .sta (.aby (word b1 b2))
  | 0xA => .txs
  | 0xC => .stz (.abs (word b1 b2))
  | 0xD => .sta (.abx (word b1 b2))
  | 0xE => .stz (.abx (word b1 b2))
  | 0xF => .bbs1 b1 b2
  | _ => .unmapped op

/-- Rule R82, row Ax. -/
def mapRowA (op b1 b2 : Byte) : Nat → Instr
  | 0x0 => .ldy (.imm b1)
  | 0x1 => .lda (.mem (.izx b1))
  | 0x2 => .ldx (.imm b1)
  | 0x4 => .ldy (.mem (.zp b1))
  | 0x5 => .lda (.mem (.zp b1))
  | 0x6 => .ldx (.mem (.zp b1))
  | 0x7 => .smb2 b1
  | 0x8 => .tay
  | 0x9 => .lda (.imm b1)
  | 0xA => .tax
  | 0xC => .ldy (.mem (.abs (word b1 b2)))
  | 0xD => .lda (.mem (.abs (word b1 b2)))
  | 0xE => .ldx (.mem (.abs (word b1 b2)))
  | 0xF => .bbs2 b1 b2
  | _ => .unmapped op

/-- Rule R82, row Bx. -/
def mapRowB (op b1 b2 : Byte) : Nat → Instr
  | 0x0 => .bcs b1
  | 0x1 => .lda (.mem (.izy b1))
  | 0x2 => .lda (.mem (.izp b1))
  | 0x4 => .ldy (.mem (.zpx b1))
  | 0x5 => .lda (.mem (.zpx b1))
  | 0x6 => .ldx (.mem (.zpy b1))
  | 0x7 => .smb3 b1
  | 0x8 => .clv
  | 0x9 => .lda (.mem (.aby (word b1 b2)))
  | 0xA => .tsx
  | 0xC => .ldy (.mem (.abx (word b1 b2)))
  | 0xD => .lda (.mem (.abx (word b1 b2)))
  | 0xE => .ldx (.mem (.aby (word b1 b2)))
  | 0xF => .bbs3 b1 b2
  | _ => .unmapped op

/-- Rule R82, row Cx. -/
def mapRowC (op b1 b2 : Byte) : Nat → Instr
  | 0x0 => .cpy (.imm b1)
  | 0x1 => .cmp (.mem (.izx b1))
  | 0x4 => .cpy (.mem (.zp b1))
  | 0x5 => .cmp (.mem (.zp b1))
  | 0x6 => .dec (.mem (.zp b1))
  | 0x7 => .smb4 b1
  | 0x8 => .iny
  | 0x9 => .cmp (.imm b1)
  | 0xA => .dex
  | 0xB => .wai
  | 0xC => .cpy (.mem (.abs (word b1 b2)))
  | 0xD => .cmp (.mem (.abs (word b1 b2)))
  | 0xE => .dec (.mem (.abs (word b1 b2)))
  | 0xF => .bbs4 b1 b2
  | _ => .unmapped op

/-- Rule R82, row Dx. -/
def mapRowD (op b1 b2 : Byte) : Nat → Instr
  | 0x0 => .bne b1
  | 0x1 => .cmp (.mem (.izy b1))
  | 0x2 => .cmp (.mem (.izp b1))
  | 0x5 => .cmp (.mem (.zpx b1))
  | 0x6 => .dec (.mem (.zpx b1))
  | 0x7 => .smb5 b1
  | 0x8 => .cld
  | 0x9 => .cmp (.mem (.aby (word b1 b2)))
  | 0xA => .phx
  | 0xB => .stp
  | 0xD => .cmp (.mem (.abx (word b1 b2)))
  | 0xE => .dec (.mem (.abx (word b1 b2)))
  | 0xF => .bbs5 b1 b2
  | _ => .unmapped op

/-- Rule R82, row Ex. -/
def mapRowE (op b1 b2 : Byte) : Nat → Instr
  | 0x0 => .cpx (.imm b1)
  | 0x1 => .sbc (.mem (.izx b1))
  | 0x4 => .cpx (.mem (.zp b1))
  | 0x5 => .sbc (.mem (.zp b1))
  | 0x6 => .inc (.mem (.zp b1))
  | 0x7 => .smb6 b1
  | 0x8 => .inx
  | 0x9 => .sbc (.imm b1)
  | 0xA => .nop
  | 0xC => .cpx (.mem (.abs (word b1 b2)))
  | 0xD => .sbc (.mem (.abs (word b1 b2)))
  | 0xE => .inc (.mem (.abs (word b1 b2)))
  | 0xF => .bbs6 b1 b2
  | _ => .unmapped op

/-- Rule R82, row Fx. -/
def mapRowF (op b1 b2 : Byte) : Nat → Instr
  | 0x0 => .beq b1
  | 0x1 => .sbc (.mem (.izy b1))
  | 0x2 => .sbc (.mem (.izp b1))
  | 0x5 => .sbc (.mem (.zpx b1))
  | 0x6 => .inc (.mem (.zpx b1))
  | 0x7 => .smb7 b1
  | 0x8 => .sed
  | 0x9 => .sbc (.mem (.aby (word b1 b2)))
  | 0xA => .plx
  | 0xD => .sbc (.mem (.abx (word b1 b2)))
  | 0xE => .inc (.mem (.abx (word b1 b2)))
  | 0xF => .bbs7 b1 b2
  | _ => .unmapped op

/-- Rule R82, the whole map: row `opcode[7:4]`, column `opcode[3:0]`; a column with no entry is
unmapped. -/
def opcodeMap (op b1 b2 : Byte) : Instr :=
  match op.toNat / 16 with
  | 0x0 => mapRow0 op b1 b2 (op.toNat % 16)
  | 0x1 => mapRow1 op b1 b2 (op.toNat % 16)
  | 0x2 => mapRow2 op b1 b2 (op.toNat % 16)
  | 0x3 => mapRow3 op b1 b2 (op.toNat % 16)
  | 0x4 => mapRow4 op b1 b2 (op.toNat % 16)
  | 0x5 => mapRow5 op b1 b2 (op.toNat % 16)
  | 0x6 => mapRow6 op b1 b2 (op.toNat % 16)
  | 0x7 => mapRow7 op b1 b2 (op.toNat % 16)
  | 0x8 => mapRow8 op b1 b2 (op.toNat % 16)
  | 0x9 => mapRow9 op b1 b2 (op.toNat % 16)
  | 0xA => mapRowA op b1 b2 (op.toNat % 16)
  | 0xB => mapRowB op b1 b2 (op.toNat % 16)
  | 0xC => mapRowC op b1 b2 (op.toNat % 16)
  | 0xD => mapRowD op b1 b2 (op.toNat % 16)
  | 0xE => mapRowE op b1 b2 (op.toNat % 16)
  | _ => mapRowF op b1 b2 (op.toNat % 16)

/-- Rules R84, R85 and R106: routing by exact match on the opcode byte, the unmapped no-op outside
`mappedSet`. Total: every byte value is an instruction. -/
def instrOf (op b1 b2 : Byte) : Instr :=
  if Config.mapped op then opcodeMap op b1 b2 else .unmapped op

end Decode

/-- Why a list of bytes holds no whole instruction. No byte VALUE is rejected (rule R84). -/
inductive DecodeError where
  /-- There is no opcode byte. -/
  | noOpcode
  /-- The operand bytes of the instruction that starts with `op` are not all there. -/
  | truncated (op : Byte)
  deriving DecidableEq, Repr

/-- What decoding a list of bytes answers: the instruction and the bytes after it, or why not. -/
inductive DecodeResult where
  | ok (i : Instr) (rest : List Byte)
  | rejected (why : DecodeError)
  deriving DecidableEq, Repr

/-- Rules R75, R77 and R88: one opcode byte, then the operand bytes its mode has. -/
def decode : List Byte → DecodeResult
  | [] => .rejected .noOpcode
  | op :: rest =>
    let i := Decode.instrOf op (rest.getD 0 0) (rest.getD 1 0)
    if i.length - 1 ≤ rest.length then .ok i (rest.drop (i.length - 1))
    else .rejected (.truncated op)

/-! ### The encoder -/

namespace Instr

/-- The opcode of each mode of the instruction, as its own rule lists them (files 41 to 44). -/
def opcodes : Instr → List (Mode × Byte)
  | .brk _ => [(.brk, 0x00)]
  | .ora _ =>
      [(.imm, 0x09), (.zp, 0x05), (.zpx, 0x15), (.abs, 0x0D), (.abx, 0x1D),
        (.aby, 0x19), (.izx, 0x01), (.izy, 0x11), (.izp, 0x12)]
  | .unmapped op => [(.imp, op)]
  | .tsb _ => [(.zp, 0x04), (.abs, 0x0C)]
  | .asl _ => [(.acc, 0x0A), (.zp, 0x06), (.zpx, 0x16), (.abs, 0x0E), (.abx, 0x1E)]
  | .rmb0 _ => [(.zp, 0x07)]
  | .php => [(.imp, 0x08)]
  | .bbr0 _ _ => [(.zpr, 0x0F)]
  | .bpl _ => [(.rel, 0x10)]
  | .trb _ => [(.zp, 0x14), (.abs, 0x1C)]
  | .rmb1 _ => [(.zp, 0x17)]
  | .clc => [(.imp, 0x18)]
  | .inc _ => [(.acc, 0x1A), (.zp, 0xE6), (.zpx, 0xF6), (.abs, 0xEE), (.abx, 0xFE)]
  | .bbr1 _ _ => [(.zpr, 0x1F)]
  | .jsr _ => [(.abs, 0x20)]
  | .and _ =>
      [(.imm, 0x29), (.zp, 0x25), (.zpx, 0x35), (.abs, 0x2D), (.abx, 0x3D),
        (.aby, 0x39), (.izx, 0x21), (.izy, 0x31), (.izp, 0x32)]
  | .bit _ => [(.imm, 0x89), (.zp, 0x24), (.zpx, 0x34), (.abs, 0x2C), (.abx, 0x3C)]
  | .rol _ => [(.acc, 0x2A), (.zp, 0x26), (.zpx, 0x36), (.abs, 0x2E), (.abx, 0x3E)]
  | .rmb2 _ => [(.zp, 0x27)]
  | .plp => [(.imp, 0x28)]
  | .bbr2 _ _ => [(.zpr, 0x2F)]
  | .bmi _ => [(.rel, 0x30)]
  | .rmb3 _ => [(.zp, 0x37)]
  | .sec => [(.imp, 0x38)]
  | .dec _ => [(.acc, 0x3A), (.zp, 0xC6), (.zpx, 0xD6), (.abs, 0xCE), (.abx, 0xDE)]
  | .bbr3 _ _ => [(.zpr, 0x3F)]
  | .rti => [(.imp, 0x40)]
  | .eor _ =>
      [(.imm, 0x49), (.zp, 0x45), (.zpx, 0x55), (.abs, 0x4D), (.abx, 0x5D),
        (.aby, 0x59), (.izx, 0x41), (.izy, 0x51), (.izp, 0x52)]
  | .lsr _ => [(.acc, 0x4A), (.zp, 0x46), (.zpx, 0x56), (.abs, 0x4E), (.abx, 0x5E)]
  | .rmb4 _ => [(.zp, 0x47)]
  | .pha => [(.imp, 0x48)]
  | .jmp _ => [(.abs, 0x4C), (.ind, 0x6C), (.iax, 0x7C)]
  | .bbr4 _ _ => [(.zpr, 0x4F)]
  | .bvc _ => [(.rel, 0x50)]
  | .rmb5 _ => [(.zp, 0x57)]
  | .cli => [(.imp, 0x58)]
  | .phy => [(.imp, 0x5A)]
  | .bbr5 _ _ => [(.zpr, 0x5F)]
  | .rts => [(.imp, 0x60)]
  | .adc _ =>
      [(.imm, 0x69), (.zp, 0x65), (.zpx, 0x75), (.abs, 0x6D), (.abx, 0x7D),
        (.aby, 0x79), (.izx, 0x61), (.izy, 0x71), (.izp, 0x72)]
  | .stz _ => [(.zp, 0x64), (.zpx, 0x74), (.abs, 0x9C), (.abx, 0x9E)]
  | .ror _ => [(.acc, 0x6A), (.zp, 0x66), (.zpx, 0x76), (.abs, 0x6E), (.abx, 0x7E)]
  | .rmb6 _ => [(.zp, 0x67)]
  | .pla => [(.imp, 0x68)]
  | .bbr6 _ _ => [(.zpr, 0x6F)]
  | .bvs _ => [(.rel, 0x70)]
  | .rmb7 _ => [(.zp, 0x77)]
  | .sei => [(.imp, 0x78)]
  | .ply => [(.imp, 0x7A)]
  | .bbr7 _ _ => [(.zpr, 0x7F)]
  | .bra _ => [(.rel, 0x80)]
  | .sta _ =>
      [(.zp, 0x85), (.zpx, 0x95), (.abs, 0x8D), (.abx, 0x9D),
        (.aby, 0x99), (.izx, 0x81), (.izy, 0x91), (.izp, 0x92)]
  | .sty _ => [(.zp, 0x84), (.zpx, 0x94), (.abs, 0x8C)]
  | .stx _ => [(.zp, 0x86), (.zpy, 0x96), (.abs, 0x8E)]
  | .smb0 _ => [(.zp, 0x87)]
  | .dey => [(.imp, 0x88)]
  | .txa => [(.imp, 0x8A)]
  | .bbs0 _ _ => [(.zpr, 0x8F)]
  | .bcc _ => [(.rel, 0x90)]
  | .smb1 _ => [(.zp, 0x97)]
  | .tya => [(.imp, 0x98)]
  | .txs => [(.imp, 0x9A)]
  | .bbs1 _ _ => [(.zpr, 0x9F)]
  | .ldy _ => [(.imm, 0xA0), (.zp, 0xA4), (.zpx, 0xB4), (.abs, 0xAC), (.abx, 0xBC)]
  | .lda _ =>
      [(.imm, 0xA9), (.zp, 0xA5), (.zpx, 0xB5), (.abs, 0xAD), (.abx, 0xBD),
        (.aby, 0xB9), (.izx, 0xA1), (.izy, 0xB1), (.izp, 0xB2)]
  | .ldx _ => [(.imm, 0xA2), (.zp, 0xA6), (.zpy, 0xB6), (.abs, 0xAE), (.aby, 0xBE)]
  | .smb2 _ => [(.zp, 0xA7)]
  | .tay => [(.imp, 0xA8)]
  | .tax => [(.imp, 0xAA)]
  | .bbs2 _ _ => [(.zpr, 0xAF)]
  | .bcs _ => [(.rel, 0xB0)]
  | .smb3 _ => [(.zp, 0xB7)]
  | .clv => [(.imp, 0xB8)]
  | .tsx => [(.imp, 0xBA)]
  | .bbs3 _ _ => [(.zpr, 0xBF)]
  | .cpy _ => [(.imm, 0xC0), (.zp, 0xC4), (.abs, 0xCC)]
  | .cmp _ =>
      [(.imm, 0xC9), (.zp, 0xC5), (.zpx, 0xD5), (.abs, 0xCD), (.abx, 0xDD),
        (.aby, 0xD9), (.izx, 0xC1), (.izy, 0xD1), (.izp, 0xD2)]
  | .smb4 _ => [(.zp, 0xC7)]
  | .iny => [(.imp, 0xC8)]
  | .dex => [(.imp, 0xCA)]
  | .wai => [(.imp, 0xCB)]
  | .bbs4 _ _ => [(.zpr, 0xCF)]
  | .bne _ => [(.rel, 0xD0)]
  | .smb5 _ => [(.zp, 0xD7)]
  | .cld => [(.imp, 0xD8)]
  | .phx => [(.imp, 0xDA)]
  | .stp => [(.imp, 0xDB)]
  | .bbs5 _ _ => [(.zpr, 0xDF)]
  | .cpx _ => [(.imm, 0xE0), (.zp, 0xE4), (.abs, 0xEC)]
  | .sbc _ =>
      [(.imm, 0xE9), (.zp, 0xE5), (.zpx, 0xF5), (.abs, 0xED), (.abx, 0xFD),
        (.aby, 0xF9), (.izx, 0xE1), (.izy, 0xF1), (.izp, 0xF2)]
  | .smb6 _ => [(.zp, 0xE7)]
  | .inx => [(.imp, 0xE8)]
  | .nop => [(.imp, 0xEA)]
  | .bbs6 _ _ => [(.zpr, 0xEF)]
  | .beq _ => [(.rel, 0xF0)]
  | .smb7 _ => [(.zp, 0xF7)]
  | .sed => [(.imp, 0xF8)]
  | .plx => [(.imp, 0xFA)]
  | .bbs7 _ _ => [(.zpr, 0xFF)]

/-- The opcode byte of an instruction in its mode; none where the mode has no encoding. -/
def opcode (i : Instr) : Option Byte := i.opcodes.lookup i.mode

/-- Rules R77 and R78: the operand bytes, in address order. -/
def operandBytes : Instr → List Byte
  | .ora src | .and src | .bit src | .eor src | .adc src | .ldy src | .lda src | .ldx src
  | .cpy src | .cmp src | .cpx src | .sbc src => src.bytes
  | .tsb m | .trb m | .stz m | .sta m | .sty m | .stx m => m.bytes
  | .asl t | .inc t | .rol t | .dec t | .lsr t | .ror t => t.bytes
  | .jmp t => t.bytes
  | .jsr target => wordBytes target
  | .bpl rel | .bmi rel | .bvc rel | .bvs rel | .bra rel | .bcc rel | .bcs rel | .bne rel
  | .beq rel => [rel]
  | .rmb0 z | .rmb1 z | .rmb2 z | .rmb3 z | .rmb4 z | .rmb5 z | .rmb6 z | .rmb7 z | .smb0 z
  | .smb1 z | .smb2 z | .smb3 z | .smb4 z | .smb5 z | .smb6 z | .smb7 z => [z]
  | .bbr0 z rel | .bbr1 z rel | .bbr2 z rel | .bbr3 z rel | .bbr4 z rel | .bbr5 z rel
  | .bbr6 z rel | .bbr7 z rel | .bbs0 z rel | .bbs1 z rel | .bbs2 z rel | .bbs3 z rel
  | .bbs4 z rel | .bbs5 z rel | .bbs6 z rel | .bbs7 z rel => [z, rel]
  | .brk sig => [sig]
  | .unmapped _ => []
  | .php | .clc | .plp | .sec | .rti | .pha | .cli | .phy | .rts | .pla | .sei | .ply
  | .dey | .txa | .tya | .txs | .tay | .tax | .clv | .tsx | .iny | .dex | .wai | .cld
  | .phx | .stp | .inx | .nop | .sed | .plx => []

end Instr

/-- Rule R75: the bytes of an instruction, the opcode byte at the lowest address (nothing where the
mode has no encoding). -/
def encode (i : Instr) : List Byte :=
  match i.opcode with
  | some op => op :: i.operandBytes
  | none => []

/-! ### The opcode table's numbering -/

/-- The three bytes that an opcode-table word of `nbits` bits stands for, lowest address first; bits
at and above `nbits` are 0. -/
def tableWordBytes (nbits w : Nat) : List Byte :=
  let v := w % 2 ^ nbits
  [BitVec.ofNat 8 v, BitVec.ofNat 8 (v / 2 ^ 8), BitVec.ofNat 8 (v / 2 ^ 16)]

/-- The instruction that the decoder reads from an opcode-table word. -/
def decodeTableWord (nbits w : Nat) : Option Instr :=
  match decode (tableWordBytes nbits w) with
  | .ok i _ => some i
  | .rejected _ => none

end Sys2Proof
end

