-- ==== Sys2Proof/Machine/Device.lean ====
section
/-! DEFINITION. The device collaborator as the core sees it (40_dispatch.md rules R121 to R123). -/

namespace Sys2Proof

/-- Rule R123 under `DeviceSource.free`: what one call does, given the whole machine state. A free value:
nothing is known of it beyond what a reply can do (log 2). -/
opaque Config.deviceReply : Machine.State → Machine.DeviceReply

namespace Machine

/-- A device call that changes nothing. -/
def DeviceReply.quiet : DeviceReply := ⟨[], false⟩

/-- What the next device call does. -/
def State.nextReply (s : State) : DeviceReply :=
  match s.device with
  | .scripted (r :: _) => r
  | .scripted [] => .quiet
  | .free => Config.deviceReply s

/-- Where the replies after the next one come from. -/
def DeviceSource.rest : DeviceSource → DeviceSource
  | .scripted replies => .scripted replies.tail
  | .free => .free

/-- Rule R123: what a reply may change. Its bytes are no Memory Bus accesses: no record, no DIRTY (rule
R71). The request is set or left, never cleared. -/
def State.applyReply (r : DeviceReply) (s : State) : State :=
  { s with
    mem := s.mem.writes r.writes
    interruptPending := s.interruptPending || r.asserts }

/-- `deviceHandle()` (rules R121 and R123). -/
def State.deviceHandle (s : State) : State :=
  { s.applyReply s.nextReply with device := s.device.rest, deviceCalls := s.deviceCalls + 1 }

/-- One I/O-synchronization pass: the device call, then DIRTY cleared (rules R117, R118 and R124). -/
def State.deviceSync (s : State) : State := { s.deviceHandle with dirty := false }

end Machine

end Sys2Proof
end

