-- ==== Sys2Proof/Machine/Phases.lean ====
section
/-! DEFINITION. The phases of the dispatch loop around a handler (40_dispatch.md rules R100 to R128,
60_exceptions.md rules R263 and R264), and what it takes to place an instruction where the loop fetches. -/

namespace Sys2Proof.Machine

namespace State

/-! ### FETCH and the operand bytes of DISPATCH -/

/-- Iteration start (rule R101). `interrupt_pending` is not touched. -/
def iterationStart (s : State) : State :=
  { s with
    dirty := false
    wait := false
    decodeOffset := 0
    branchDisplacement := 0
    pcAtFetch := s.pc }

/-- FETCH (rules R101 and R102): iteration start, then the opcode as the cursor's read at offset 0, which no
policy blocks. -/
def fetchPhase (s : State) : State :=
  let t := s.iterationStart
  let op := t.mem.read t.cursorAddr
  { t.consume op with currentOpcode := op, phase := .dispatch }

/-- The bytes from an address on, three of them: as many as an instruction can have. -/
def bytesAt (m : Memory) (a : Addr) : List Byte := [m.read a, m.read (a + 1), m.read (a + 2)]

/-- The instruction DISPATCH routes to (rules R85 and R106), its operand bytes those the cursor would read
next (rule R104, log 14). -/
def instructionInFlight (s : State) : Instr :=
  Decode.instrOf s.currentOpcode (s.mem.read s.cursorAddr) (s.mem.read (s.cursorAddr + 1))

/-! ### RESOLVE_PC -/

/-- Rule R112: the pc advances by `decode_offset` where it still equals the snapshot. -/
def advancedPc (s : State) : Addr :=
  if s.pc = s.pcAtFetch then BitVec.ofNat 16 (s.pc.toNat + s.decodeOffset) else s.pc

/-- RESOLVE_PC (rules R112 and R113): the advance, then the displacement, mod 2^16. -/
def resolvePc (s : State) : State :=
  { s with
    pc := BitVec.ofInt 16 ((s.advancedPc.toNat : Int) + s.branchDisplacement)
    phase := .ioSync }

/-! ### IO_SYNC, WAIT_POLL and INTERRUPT_CHECK -/

/-- IO_SYNC (rule R117), and where it leads (rule R100). -/
def ioSync (s : State) : State :=
  { s.deviceSync with phase := if s.wait then .waitPoll else .interruptCheck }

/-- Rule R118: the test of the wait loop. -/
def mustWait (s : State) : Bool := s.wait && !s.interruptPending

/-- INTERRUPT_CHECK (rule R264). -/
def interruptCheck (s : State) : State :=
  if s.interruptPending && !s.flag .I then { s.inject with phase := .fetch }
  else { s with phase := .fetch }

/-- After a device call that may have ended the wait (rules R100 and R118): one more poll, or
INTERRUPT_CHECK. -/
def afterSync (s : State) : State :=
  if s.mustWait then { s with phase := .waitPoll } else s.interruptCheck

/-- WAIT_POLL (rule R118): the test, and one poll where it holds. -/
def waitPoll (s : State) : State :=
  if s.mustWait then s.deviceSync.afterSync else s.interruptCheck

/-- The rest of an iteration from IO_SYNC on, up to the next FETCH or to a poll that has to wait. -/
def fromIoSync (s : State) : State := s.ioSync.afterSync

/-- The rest of an iteration from RESOLVE_PC on. -/
def fromResolvePc (s : State) : State := s.resolvePc.fromIoSync

/-! ### Halt -/

/-- Rule R108: the pc that STP leaves, a draw from the two addresses. -/
def drawHaltPc (s : State) : State :=
  { s with
    pc := if Config.haltPcAdvances s.draws then s.pcAtFetch + 1 else s.pcAtFetch
    draws := s.draws + 1 }

/-- HALT_FLUSH (rule R124): the final pass, `finish()`, HALTED. `finish()` changes nothing the core can see
(rule R122). -/
def haltFlush (s : State) : State := { s.deviceSync with phase := .halted }

/-- What follows a handler (rule R100): HALT_FLUSH if it returned `halt`, else RESOLVE_PC and the rest. -/
def afterHandler (s : State) : State :=
  match s.phase with
  | .haltFlush => s.drawHaltPc.haltFlush
  | _ => s.fromResolvePc

/-! ### Placing an instruction -/

/-- The bytes of `bytes` stored from an address on (rule R57: addresses mod 2^16). -/
def placeBytes : List Byte → Addr → Memory → Memory
  | [], _, m => m
  | b :: rest, a, m => placeBytes rest (a + 1) (m.write a b)

end State

end Sys2Proof.Machine
end

