-- ==== Sys2Proof/Machine/Params.lean ====
section
/-! DEFINITION. The parameters `mappedSet`, `handlers` and `cursorTopPolicy` of rule R8 (00_scope.md) as
arguments, the handlers that rules R110 and R111 (40_dispatch.md) allow, and DISPATCH (rule R106) for any
value of them. -/

namespace Sys2Proof.Machine

/-! ### Handlers -/

/-- What rule R110 lets a handler read of the state without an access. -/
structure HandlerView where
  a : Byte
  x : Byte
  y : Byte
  sp : Byte
  p : Byte
  pc : Addr
  pcAtFetch : Addr
  currentOpcode : Byte
  deriving DecidableEq, Repr

/-- A handler as a program over the actions of rule R110. What rule R111 forbids cannot be written down: there
is no action on the request, the snapshot, the opcode, the cursor, DIRTY, the device or the phase. -/
inductive HandlerProgram where
  /-- Return `continue`. -/
  | done
  /-- Return `halt`, the STP handler only (rule R108). -/
  | halt
  /-- `Fetch()`. -/
  | fetch (next : Byte → HandlerProgram)
  /-- `MemRead(addr, 1)`. -/
  | memRead (addr : Addr) (next : Byte → HandlerProgram)
  /-- `MemWrite(addr, 1, v)`. -/
  | memWrite (addr : Addr) (v : Byte) (next : HandlerProgram)
  /-- Read registers. -/
  | view (next : HandlerView → HandlerProgram)
  /-- `A <- v`. -/
  | setA (v : Byte) (next : HandlerProgram)
  /-- `X <- v`. -/
  | setX (v : Byte) (next : HandlerProgram)
  /-- `Y <- v`. -/
  | setY (v : Byte) (next : HandlerProgram)
  /-- `SP <- v`. -/
  | setSp (v : Byte) (next : HandlerProgram)
  /-- `P <- v`. -/
  | setP (v : Byte) (next : HandlerProgram)
  /-- `pc <- target`. -/
  | setPc (target : Addr) (next : HandlerProgram)
  /-- `branch_displacement <- d`. -/
  | setBranchDisplacement (d : Int) (next : HandlerProgram)
  /-- `WAIT <- 1`, the WAI handler only (rules R33 and R246). -/
  | setWait (next : HandlerProgram)
  /-- Take the number of the next free value (the model's own, log 27). -/
  | draw (next : Nat → HandlerProgram)

namespace State

/-- The view of rule R110. -/
def handlerView (s : State) : HandlerView :=
  { a := s.a, x := s.x, y := s.y, sp := s.sp, p := s.p, pc := s.pc
    pcAtFetch := s.pcAtFetch, currentOpcode := s.currentOpcode }

/-- Rule R108: a handler's `halt` leads to HALT_FLUSH; at another opcode than STP's it is `continue`
(log 27). -/
def haltResult (s : State) : State :=
  if s.currentOpcode = 0xDB#8 then { s with phase := .haltFlush } else s

/-- Rule R33: a handler's `WAIT <- 1` is WAI's alone; at another opcode it changes nothing (log 27). -/
def requestWait (s : State) : State :=
  if s.currentOpcode = 0xCB#8 then { s with wait := true } else s

/-- The reference handler of the opcode in flight (files 41 to 44) under a policy: the cursor reads of its operand
bytes come first (rule R104, log 14). -/
def runReference (policy : CursorTopPolicy) (s : State) : Out :=
  match consumeUnder policy s.instructionInFlight.operandBytes s with
  | .next _ => exec s.instructionInFlight s
  | .fault f => .fault f
  | .refused r => .refused r

end State

/-- What a handler's actions do (rules R51, R52, R104 and R110). -/
def HandlerProgram.run (policy : CursorTopPolicy) : HandlerProgram → State → Out
  | .done, s => .next s
  | .halt, s => .next s.haltResult
  | .fetch next, s =>
    match s.fetch policy with
    | .next r => (next r.1).run policy r.2
    | .fault f => .fault f
    | .refused r => .refused r
  | .memRead addr next, s => (next (s.busRead addr).1).run policy (s.busRead addr).2
  | .memWrite addr v next, s => next.run policy (s.busWrite addr v)
  | .view next, s => (next s.handlerView).run policy s
  | .setA v next, s => next.run policy (s.setA v)
  | .setX v next, s => next.run policy (s.setX v)
  | .setY v next, s => next.run policy (s.setY v)
  | .setSp v next, s => next.run policy (s.setSp v)
  | .setP v next, s => next.run policy (s.setP v)
  | .setPc target next, s => next.run policy (s.setPc target)
  | .setBranchDisplacement d next, s => next.run policy { s with branchDisplacement := d }
  | .setWait next, s => next.run policy s.requestWait
  | .draw next, s => (next s.draws).run policy { s with draws := s.draws + 1 }

/-- Rule R8: what `handlers` maps an opcode to. -/
inductive Handler where
  /-- The reference handler of that opcode, the default (decision D3). -/
  | reference
  /-- Any other handler within the contract. -/
  | program (body : HandlerProgram)

/-- Running a handler under a policy. -/
def Handler.run (policy : CursorTopPolicy) : Handler → State → Out
  | .reference, s => s.runReference policy
  | .program body, s => body.run policy s

/-! ### The parameters -/

/-- Rule R8: the parameters that the dispatch loop takes. The others of R8 are `State.device`, `Launch` and the free
values of Config. -/
structure Params where
  /-- Membership in `mappedSet` (decision D1). -/
  mappedSet : Byte → Bool
  /-- The handler of each mapped opcode (decision D3). -/
  handlers : Byte → Handler
  /-- What the cursor does past 0xFFFF (decision D4). -/
  cursorTopPolicy : CursorTopPolicy

namespace Params

/-- Rule R8: the spec's choice of each. -/
def default : Params where
  mappedSet := Config.mapped
  handlers := fun _ => .reference
  cursorTopPolicy := Config.cursorTopPolicy

/-- DISPATCH (rule R106): the handler of a mapped opcode, else the unmapped no-op (rule R249). -/
def dispatch (P : Params) (s : State) : Out :=
  if P.mappedSet s.currentOpcode then (P.handlers s.currentOpcode).run P.cursorTopPolicy s
  else exec (.unmapped s.currentOpcode) s

end Params

/-- What follows a handler that returned (rule R100). -/
def afterDispatch : Out → Out
  | .next t => .next t.afterHandler
  | .fault f => .fault f
  | .refused r => .refused r

end Sys2Proof.Machine
end

