-- ==== Sys2Proof/Machine/Step.lean ====
section
/-! DEFINITION. The step: one iteration of the dispatch loop (40_dispatch.md rule R127, conflict C1), or the
rest of one from the phase the state is in (log 1). -/

namespace Sys2Proof.Machine

/-- One step under any value of the parameters of rule R8 (rules R100 and R127). HALTED has none (rule
R125). -/
def stepUnder (P : Params) (s : State) : Host.Outcome State Fault Refusal :=
  match s.phase with
  | .fetch => afterDispatch (P.dispatch s.fetchPhase)
  | .dispatch => afterDispatch (P.dispatch s)
  | .resolvePc => .next s.fromResolvePc
  | .ioSync => .next s.fromIoSync
  | .waitPoll => .next s.waitPoll
  | .interruptCheck => .next s.interruptCheck
  | .haltFlush => .next s.haltFlush
  | .halted => .fault .halted

/-- One step under the spec's default parameters. -/
def step (s : State) : Host.Outcome State Fault Refusal := stepUnder Params.default s

/-- The state with an opcode-table word stored where the next step fetches: at `pc`, in phase FETCH
(log 5). -/
def State.withFetchWord (s : State) (nbits w : Nat) : State :=
  { s with mem := State.placeBytes (tableWordBytes nbits w) s.pc s.mem, phase := .fetch }

end Sys2Proof.Machine
end

