-- ==== Sys2Proof/Machine/Trace.lean ====
section
/-! DEFINITION. The trace sink's text (20_memory.md rule R53). -/

namespace Sys2Proof.Machine

/-- An uppercase hexadecimal digit. -/
def hexDigit (n : Nat) : Char :=
  if n < 10 then Char.ofNat (48 + n) else Char.ofNat (55 + n)

/-- A number as `digits` uppercase hexadecimal digits. -/
def hex : Nat → Nat → List Char
  | 0, _ => []
  | digits + 1, n => hex digits (n / 16) ++ [hexDigit (n % 16)]

/-- Rule R53: the direction marker. -/
def Direction.marker : Direction → Char
  | .read => 'r'
  | .write => 'W'

/-- Rule R53: `AAAA D VV` and a newline. -/
def TraceRecord.line (r : TraceRecord) : List Char :=
  hex 4 r.addr.toNat ++ [' ', r.dir.marker, ' '] ++ hex 2 r.value.toNat ++ ['\n']

/-- What the trace sink has been sent, in order. -/
def State.traceText (s : State) : List Char := (s.trace.reverse.map TraceRecord.line).flatten

end Sys2Proof.Machine
end

