-- ==== Sys2Proof/Machine/Assembly.lean ====
section
/-! DEFINITION. The assembler's view of an instruction (30_encoding.md rules R81, R90 and R91): its text, and the operand byte
of a branch. No step reads it. -/

namespace Sys2Proof

open Machine

namespace Assembly

/-- `$` and two digits. -/
def hexByte (b : Byte) : List Char := '$' :: hex 2 b.toNat

/-- `$` and four digits. -/
def hexWord (a : Addr) : List Char := '$' :: hex 4 a.toNat

/-- Rule R81: the target of a branch of length `length` at `pc` with operand byte `rel`. -/
def branchTarget (pc : Addr) (length : Nat) (rel : Byte) : Addr :=
  BitVec.ofInt 16 ((pc.toNat : Int) + length + int8 rel)

/-- Rule R81: the operand byte of a branch to `target`, none where it is out of reach. The difference is taken
mod 2^16, as RESOLVE_PC adds it (log 26). -/
def branchOperand (pc : Addr) (length : Nat) (target : Addr) : Option Byte :=
  let d := (target - (pc + BitVec.ofNat 16 length)).toInt
  if -128 ≤ d ∧ d ≤ 127 then some (BitVec.ofInt 8 d) else none

/-- Rule R78, syntax column. -/
def memMode : MemMode → List Char
  | .zp z => hexByte z
  | .zpx z => hexByte z ++ [',', 'X']
  | .zpy z => hexByte z ++ [',', 'Y']
  | .abs a => hexWord a
  | .abx a => hexWord a ++ [',', 'X']
  | .aby a => hexWord a ++ [',', 'Y']
  | .izx z => '(' :: hexByte z ++ [',', 'X', ')']
  | .izy z => '(' :: hexByte z ++ [')', ',', 'Y']
  | .izp z => '(' :: hexByte z ++ [')']

/-- Rule R78, syntax column: `#` marks an immediate. -/
def source : Source → List Char
  | .imm b => '#' :: hexByte b
  | .mem m => memMode m

/-- Rule R78, syntax column. -/
def rmwTarget : RmwTarget → List Char
  | .acc => ['A']
  | .mem m => memMode m

/-- Rule R78, syntax column. -/
def jumpTarget : JumpTarget → List Char
  | .abs a => hexWord a
  | .ind a => '(' :: hexWord a ++ [')']
  | .iax a => '(' :: hexWord a ++ [',', 'X', ')']

/-- Rule R90: the mnemonic. An unmapped byte has none. -/
def mnemonic : Instr → Option (List Char)
  | .brk _ => some ['B', 'R', 'K']
  | .ora _ => some ['O', 'R', 'A']
  | .tsb _ => some ['T', 'S', 'B']
  | .asl _ => some ['A', 'S', 'L']
  | .rmb0 _ => some ['R', 'M', 'B', '0']
  | .php => some ['P', 'H', 'P']
  | .bbr0 _ _ => some ['B', 'B', 'R', '0']
  | .bpl _ => some ['B', 'P', 'L']
  | .trb _ => some ['T', 'R', 'B']
  | .rmb1 _ => some ['R', 'M', 'B', '1']
  | .clc => some ['C', 'L', 'C']
  | .inc _ => some ['I', 'N', 'C']
  | .bbr1 _ _ => some ['B', 'B', 'R', '1']
  | .jsr _ => some ['J', 'S', 'R']
  | .and _ => some ['A', 'N', 'D']
  | .bit _ => some ['B', 'I', 'T']
  | .rol _ => some ['R', 'O', 'L']
  | .rmb2 _ => some ['R', 'M', 'B', '2']
  | .plp => some ['P', 'L', 'P']
  | .bbr2 _ _ => some ['B', 'B', 'R', '2']
  | .bmi _ => some ['B', 'M', 'I']
  | .rmb3 _ => some ['R', 'M', 'B', '3']
  | .sec => some ['S', 'E', 'C']
  | .dec _ => some ['D', 'E', 'C']
  | .bbr3 _ _ => some ['B', 'B', 'R', '3']
  | .rti => some ['R', 'T', 'I']
  | .eor _ => some ['E', 'O', 'R']
  | .lsr _ => some ['L', 'S', 'R']
  | .rmb4 _ => some ['R', 'M', 'B', '4']
  | .pha => some ['P', 'H', 'A']
  | .jmp _ => some ['J', 'M', 'P']
  | .bbr4 _ _ => some ['B', 'B', 'R', '4']
  | .bvc _ => some ['B', 'V', 'C']
  | .rmb5 _ => some ['R', 'M', 'B', '5']
  | .cli => some ['C', 'L', 'I']
  | .phy => some ['P', 'H', 'Y']
  | .bbr5 _ _ => some ['B', 'B', 'R', '5']
  | .rts => some ['R', 'T', 'S']
  | .adc _ => some ['A', 'D', 'C']
  | .stz _ => some ['S', 'T', 'Z']
  | .ror _ => some ['R', 'O', 'R']
  | .rmb6 _ => some ['R', 'M', 'B', '6']
  | .pla => some ['P', 'L', 'A']
  | .bbr6 _ _ => some ['B', 'B', 'R', '6']
  | .bvs _ => some ['B', 'V', 'S']
  | .rmb7 _ => some ['R', 'M', 'B', '7']
  | .sei => some ['S', 'E', 'I']
  | .ply => some ['P', 'L', 'Y']
  | .bbr7 _ _ => some ['B', 'B', 'R', '7']
  | .bra _ => some ['B', 'R', 'A']
  | .sta _ => some ['S', 'T', 'A']
  | .sty _ => some ['S', 'T', 'Y']
  | .stx _ => some ['S', 'T', 'X']
  | .smb0 _ => some ['S', 'M', 'B', '0']
  | .dey => some ['D', 'E', 'Y']
  | .txa => some ['T', 'X', 'A']
  | .bbs0 _ _ => some ['B', 'B', 'S', '0']
  | .bcc _ => some ['B', 'C', 'C']
  | .smb1 _ => some ['S', 'M', 'B', '1']
  | .tya => some ['T', 'Y', 'A']
  | .txs => some ['T', 'X', 'S']
  | .bbs1 _ _ => some ['B', 'B', 'S', '1']
  | .ldy _ => some ['L', 'D', 'Y']
  | .lda _ => some ['L', 'D', 'A']
  | .ldx _ => some ['L', 'D', 'X']
  | .smb2 _ => some ['S', 'M', 'B', '2']
  | .tay => some ['T', 'A', 'Y']
  | .tax => some ['T', 'A', 'X']
  | .bbs2 _ _ => some ['B', 'B', 'S', '2']
  | .bcs _ => some ['B', 'C', 'S']
  | .smb3 _ => some ['S', 'M', 'B', '3']
  | .clv => some ['C', 'L', 'V']
  | .tsx => some ['T', 'S', 'X']
  | .bbs3 _ _ => some ['B', 'B', 'S', '3']
  | .cpy _ => some ['C', 'P', 'Y']
  | .cmp _ => some ['C', 'M', 'P']
  | .smb4 _ => some ['S', 'M', 'B', '4']
  | .iny => some ['I', 'N', 'Y']
  | .dex => some ['D', 'E', 'X']
  | .wai => some ['W', 'A', 'I']
  | .bbs4 _ _ => some ['B', 'B', 'S', '4']
  | .bne _ => some ['B', 'N', 'E']
  | .smb5 _ => some ['S', 'M', 'B', '5']
  | .cld => some ['C', 'L', 'D']
  | .phx => some ['P', 'H', 'X']
  | .stp => some ['S', 'T', 'P']
  | .bbs5 _ _ => some ['B', 'B', 'S', '5']
  | .cpx _ => some ['C', 'P', 'X']
  | .sbc _ => some ['S', 'B', 'C']
  | .smb6 _ => some ['S', 'M', 'B', '6']
  | .inx => some ['I', 'N', 'X']
  | .nop => some ['N', 'O', 'P']
  | .bbs6 _ _ => some ['B', 'B', 'S', '6']
  | .beq _ => some ['B', 'E', 'Q']
  | .smb7 _ => some ['S', 'M', 'B', '7']
  | .sed => some ['S', 'E', 'D']
  | .plx => some ['P', 'L', 'X']
  | .bbs7 _ _ => some ['B', 'B', 'S', '7']
  | .unmapped _ => none

/-- Rule R90: the operand, for an instruction at `pc`; empty where there is none. -/
def operand (pc : Addr) : Instr → List Char
  | .ora src | .and src | .bit src | .eor src | .adc src | .ldy src | .lda src | .ldx src
  | .cpy src | .cmp src | .cpx src | .sbc src => source src
  | .tsb m | .trb m | .stz m | .sta m | .sty m | .stx m => memMode m
  | .asl t | .inc t | .rol t | .dec t | .lsr t | .ror t => rmwTarget t
  | .jmp t => jumpTarget t
  | .jsr target => hexWord target
  | .bpl rel | .bmi rel | .bvc rel | .bvs rel | .bra rel | .bcc rel | .bcs rel | .bne rel
  | .beq rel => hexWord (branchTarget pc 2 rel)
  | .rmb0 z | .rmb1 z | .rmb2 z | .rmb3 z | .rmb4 z | .rmb5 z | .rmb6 z | .rmb7 z | .smb0 z
  | .smb1 z | .smb2 z | .smb3 z | .smb4 z | .smb5 z | .smb6 z | .smb7 z => hexByte z
  | .bbr0 z rel | .bbr1 z rel | .bbr2 z rel | .bbr3 z rel | .bbr4 z rel | .bbr5 z rel
  | .bbr6 z rel | .bbr7 z rel | .bbs0 z rel | .bbs1 z rel | .bbs2 z rel | .bbs3 z rel
  | .bbs4 z rel | .bbs5 z rel | .bbs6 z rel | .bbs7 z rel =>
    hexByte z ++ ',' :: hexWord (branchTarget pc 3 rel)
  | .brk sig => '#' :: hexByte sig
  | .php | .clc | .plp | .sec | .rti | .pha | .cli | .phy | .rts | .pla | .sei | .ply
  | .dey | .txa | .tya | .txs | .tay | .tax | .clv | .tsx | .iny | .dex | .wai | .cld
  | .phx | .stp | .inx | .nop | .sed | .plx | .unmapped _ => []

/-- Rule R90: the text of an instruction at `pc`, none for an unmapped byte. -/
def text (pc : Addr) (i : Instr) : Option (List Char) :=
  match mnemonic i, operand pc i with
  | some m, [] => some m
  | some m, op => some (m ++ ' ' :: op)
  | none, _ => none

end Assembly

end Sys2Proof
end

