-- ==== Sys2Proof/Machine/Launch.lean ====
section
/-! DEFINITION. The start of a run (70_reset_and_hazards.md rules R290 to R293): the launch record, and `init()`
before the first FETCH. -/

namespace Sys2Proof.Machine

/-- Rule R291: the launch parameters. Any byte of the image that `memory` does not list is
`Config.unlistedByte`, so every image can be written down (log 6). -/
structure Launch where
  memory : Memory
  pc : Addr
  a : Byte
  x : Byte
  y : Byte
  sp : Byte
  p : Byte
  deriving DecidableEq, Repr

/-- Rule R292 step 1: the state built from the record. The transient fields are as in `State.reset`
(rule R291: any value, log 7). -/
def Launch.state (l : Launch) (device : DeviceSource) : State :=
  { State.reset with
    mem := l.memory, pc := l.pc, a := l.a, x := l.x, y := l.y, sp := l.sp, p := l.p, device := device }

/-- Rule R292 steps 1 and 2: `init()` may do what a device call may; it is not one of the calls that
`deviceCalls` counts (log 17). -/
def Launch.start (l : Launch) (device : DeviceSource) (init : DeviceReply) : State :=
  (l.state device).applyReply init

end Sys2Proof.Machine
end

