-- ==== Sys2Proof/Safety.lean ====
section
/-! DEFINITION. What claims about runs are stated with: runs of steps, and what ends one
(40_dispatch.md rules R119, R125 and R126). -/

namespace Sys2Proof.Machine

/-- `k` steps from `s` lead to `t`. -/
def Leads (k : Nat) (s t : State) : Prop := Sys2Proof.core.run k s = .next t

/-- The machine under other values of the parameters of rule R8, with the same runs. -/
def coreUnder (P : Params) : Host.Core :=
  { Sys2Proof.core with step := stepUnder P }

/-- Rule R126: the run from `s` ends, which is reaching HALTED. -/
def Ends (s : State) : Prop := ∃ k t, Leads k s t ∧ t.phase = .halted

/-- A safe run stops only because it has ended: no step of it is refused, and none faults before HALTED. -/
def Safe (s : State) : Prop := ∀ k t, Leads k s t → t.phase ≠ .halted → ∃ u, step t = .next u

/-- What every state between two steps of a run satisfies, whatever the parameters of rule R8 are. Memory is in its
canonical form; the loop stands at FETCH, in a poll that has to wait, or at its end (rules R100 and
R118); DIRTY is clear after the device call of a poll or of the halt (rules R117 and R124); the controller is
armed (rule R36). -/
abbrev LoopInv (s : State) : Prop :=
  s.mem.wf
    ∧ (s.phase = .fetch ∨ s.phase = .waitPoll ∨ s.phase = .halted)
    ∧ (s.phase = .waitPoll → s.wait = true ∧ s.interruptPending = false)
    ∧ (s.phase ≠ .fetch → s.dirty = false)
    ∧ s.icState = .armed

/-- The same with the cursor inside its range under the reference handlers (rules R30 and R31). -/
abbrev Inv (s : State) : Prop :=
  LoopInv s ∧ s.decodeOffset ≤ 3 ∧ -128 ≤ s.branchDisplacement ∧ s.branchDisplacement ≤ 127

end Sys2Proof.Machine
end

