-- ==== Sys2Proof/Certificates/Slice0/Obligations.lean ====
section
/-! DEFINITION. The statements for the provers, and the words they are written with. -/

namespace Sys2Proof.Claims

open Machine

/-! ### What a handler leaves alone -/

/-- The fields no handler writes (rule R111), and the cursor advanced by the operand bytes of `i`. -/
def KeepsCore (i : Instr) (s t : State) : Prop :=
  t.pcAtFetch = s.pcAtFetch ∧ t.currentOpcode = s.currentOpcode
    ∧ t.interruptPending = s.interruptPending ∧ t.icState = s.icState
    ∧ t.device = s.device ∧ t.deviceCalls = s.deviceCalls
    ∧ t.decodeOffset + 1 = s.decodeOffset + i.length

/-- What a sequential handler leaves alone (rule R140): the above, pc, displacement, WAIT and phase; and no free
value is drawn. -/
def SequentialHandler (i : Instr) (s t : State) : Prop :=
  KeepsCore i s t ∧ t.pc = s.pc ∧ t.branchDisplacement = s.branchDisplacement ∧ t.wait = s.wait
    ∧ t.phase = s.phase ∧ t.draws = s.draws

/-- What a relative handler leaves alone (rule R209): all but the displacement. -/
def RelativeHandler (i : Instr) (s t : State) : Prop :=
  KeepsCore i s t ∧ t.pc = s.pc ∧ t.wait = s.wait ∧ t.phase = s.phase ∧ t.draws = s.draws

/-- What an absolute handler leaves alone: all but pc. -/
def AbsoluteHandler (i : Instr) (s t : State) : Prop :=
  KeepsCore i s t ∧ t.branchDisplacement = s.branchDisplacement ∧ t.wait = s.wait
    ∧ t.phase = s.phase ∧ t.draws = s.draws

/-- A, X, Y and SP unchanged. -/
def RegsKept (s t : State) : Prop := t.a = s.a ∧ t.x = s.x ∧ t.y = s.y ∧ t.sp = s.sp

/-- Every flag but those listed unchanged. -/
def FlagsKept (written : List Flag) (s t : State) : Prop :=
  ∀ f, f ∉ written → t.flag f = s.flag f

/-- Nothing is stored: every byte reads as before, and DIRTY is as before. -/
def MemoryKept (s t : State) : Prop :=
  (∀ a, t.mem.read a = s.mem.read a) ∧ t.dirty = s.dirty

/-- One byte is stored, `v` at `a`: it reads as `v` (in a memory in its canonical form), every other byte reads
as before, and DIRTY is set (rule R52). -/
def StoresByte (a : Addr) (v : Byte) (s t : State) : Prop :=
  (s.mem.wf → t.mem.read a = v) ∧ (∀ b, b ≠ a → t.mem.read b = s.mem.read b) ∧ t.dirty = true

/-- `SetNZ(v)` (rule R12): N is bit 7 of `v`, Z says that `v` is zero. -/
def NzFrom (v : Byte) (t : State) : Prop :=
  t.flag .N = v.getLsbD 7 ∧ t.flag .Z = decide (v = 0x00#8)

/-- The result of a read-modify-write instruction, in A or in the byte at the effective address. -/
def RmwResult (tg : RmwTarget) (r : Byte) (s t : State) : Prop :=
  match tg with
  | .acc => t.a = r ∧ MemoryKept s t
  | .mem m => t.a = s.a ∧ StoresByte (m.address s) r s t

/-- A return frame on the stack (rules R222, R244 and R265): the bytes `vs`, pushed in order from SP downwards and
wrapping within page 0x01 (rule R60). Every byte that is not one of them reads as before. -/
def PushesFrame (vs : List Byte) (s t : State) : Prop :=
  (s.mem.wf → ∀ k v, vs[k]? = some v → t.mem.read (State.stackAddr (s.sp - BitVec.ofNat 8 k)) = v)
    ∧ (∀ a, (∀ k, k < vs.length → a ≠ State.stackAddr (s.sp - BitVec.ofNat 8 k)) →
        t.mem.read a = s.mem.read a)
    ∧ t.sp = s.sp - BitVec.ofNat 8 vs.length ∧ t.dirty = true

/-- The byte at the vector's low address and the byte above it (rule R61). -/
def vectorTarget (s : State) : Addr := word (s.mem.read 0xFFFE#16) (s.mem.read 0xFFFF#16)

/-! ### Traces -/

/-- Records, oldest first, are the accesses of a memory: each read shows the byte the memory then holds, each write
stores the byte shown (rules R51, R52 and R54). -/
def Accounts : List TraceRecord → Memory → Prop
  | [], _ => True
  | r :: rest, m =>
    match r.dir with
    | .read => m.read r.addr = r.value ∧ Accounts rest m
    | .write => Accounts rest (m.write r.addr r.value)

/-- The memory that the writes among the records, oldest first, leave. -/
def replay : List TraceRecord → Memory → Memory
  | [], m => m
  | r :: rest, m =>
    match r.dir with
    | .read => replay rest m
    | .write => replay rest (m.write r.addr r.value)

/-- Some record is a write. -/
def anyWrite (rs : List TraceRecord) : Bool := rs.any fun r => r.dir == .write

/-- The record of a read: it shows the byte that memory holds. -/
def reads (s : State) (a : Addr) : TraceRecord := ⟨a, .read, s.mem.read a⟩

/-- The record of a write. -/
def writes (a : Addr) (v : Byte) : TraceRecord := ⟨a, .write, v⟩

/-- The records of the operand bytes, in address order from a cursor position on (rule R104). -/
def operandRecords : Nat → List Byte → List TraceRecord
  | _, [] => []
  | position, b :: rest => ⟨BitVec.ofNat 16 position, .read, b⟩ :: operandRecords (position + 1) rest

/-- The pointer reads of a mode, low byte first, within page zero (rules R78 and R79). -/
def pointerRecords (m : MemMode) (s : State) : List TraceRecord :=
  match m with
  | .izx z =>
    [reads s (BitVec.ofNat 16 ((z.toNat + s.x.toNat) % 256)),
      reads s (BitVec.ofNat 16 ((z.toNat + s.x.toNat + 1) % 256))]
  | .izy z | .izp z =>
    [reads s (BitVec.ofNat 16 z.toNat), reads s (BitVec.ofNat 16 ((z.toNat + 1) % 256))]
  | .zp _ | .zpx _ | .zpy _ | .abs _ | .abx _ | .aby _ => []

/-- The records of Load (rule R140). -/
def loadRecords (src : Source) (s : State) : List TraceRecord :=
  match src with
  | .imm _ => []
  | .mem m => pointerRecords m s ++ [reads s (m.address s)]

/-- The records of Store (rule R140). -/
def storeRecords (m : MemMode) (v : Byte) (s : State) : List TraceRecord :=
  pointerRecords m s ++ [writes (m.address s) v]

/-- The records of RMW on memory (rule R140): one read, then one write of what `f` makes of the byte read. -/
def modifyRecords (m : MemMode) (f : Nat → Nat) (s : State) : List TraceRecord :=
  pointerRecords m s
    ++ [reads s (m.address s),
      writes (m.address s) (BitVec.ofNat 8 (f (s.mem.read (m.address s)).toNat))]

/-- The records of RMW (rule R140): none on A. -/
def rmwRecords (tg : RmwTarget) (f : Nat → Nat) (s : State) : List TraceRecord :=
  match tg with
  | .acc => []
  | .mem m => modifyRecords m f s

/-- The record of the read of a zero-page byte. -/
def zeroPageRead (z : Byte) (s : State) : TraceRecord := reads s (BitVec.ofNat 16 z.toNat)

/-- The records of RMBn and SMBn (rules R207 and R208): bit n of the zero-page byte becomes `b`. -/
def memoryBitRecords (z : Byte) (n : Nat) (b : Bool) (s : State) : List TraceRecord :=
  let v := s.mem.read (BitVec.ofNat 16 z.toNat)
  [zeroPageRead z s,
    writes (BitVec.ofNat 16 z.toNat) (if b then v ||| 1#8 <<< n else v &&& ~~~(1#8 <<< n))]

/-- The records of pushes in order from SP downwards (rule R58). -/
def pushRecords : Byte → List Byte → List TraceRecord
  | _, [] => []
  | sp, v :: rest => writes (State.stackAddr sp) v :: pushRecords (sp - 1) rest

/-- The records of `n` pulls in order from SP upwards (rule R59). -/
def pullRecords (s : State) : Nat → Byte → List TraceRecord
  | 0, _ => []
  | n + 1, sp => reads s (State.stackAddr (sp + 1)) :: pullRecords s n (sp + 1)

/-- The accesses of a handler after its operand bytes, in order, as the rules of files 41 to 44 write them. -/
def dataRecords (i : Instr) (s : State) : List TraceRecord :=
  match i with
  | .adc src | .sbc src | .cmp src | .cpx src | .cpy src | .lda src | .ldx src | .ldy src
  | .and src | .eor src | .ora src | .bit src => loadRecords src s
  | .sta m => storeRecords m s.a s
  | .stx m => storeRecords m s.x s
  | .sty m => storeRecords m s.y s
  | .stz m => storeRecords m 0x00#8 s
  | .tsb m => modifyRecords m (fun v => v ||| s.a.toNat) s
  | .trb m => modifyRecords m (fun v => v &&& (255 - s.a.toNat)) s
  | .asl tg => rmwRecords tg (fun v => v * 2) s
  | .lsr tg => rmwRecords tg (fun v => v / 2) s
  | .rol tg => rmwRecords tg (fun v => v * 2 + (s.flag .C).toNat) s
  | .ror tg => rmwRecords tg (fun v => v / 2 + (s.flag .C).toNat * 128) s
  | .inc tg => rmwRecords tg (fun v => v + 1) s
  | .dec tg => rmwRecords tg (fun v => v + 255) s
  | .rmb0 z => memoryBitRecords z 0 false s
  | .rmb1 z => memoryBitRecords z 1 false s
  | .rmb2 z => memoryBitRecords z 2 false s
  | .rmb3 z => memoryBitRecords z 3 false s
  | .rmb4 z => memoryBitRecords z 4 false s
  | .rmb5 z => memoryBitRecords z 5 false s
  | .rmb6 z => memoryBitRecords z 6 false s
  | .rmb7 z => memoryBitRecords z 7 false s
  | .smb0 z => memoryBitRecords z 0 true s
  | .smb1 z => memoryBitRecords z 1 true s
  | .smb2 z => memoryBitRecords z 2 true s
  | .smb3 z => memoryBitRecords z 3 true s
  | .smb4 z => memoryBitRecords z 4 true s
  | .smb5 z => memoryBitRecords z 5 true s
  | .smb6 z => memoryBitRecords z 6 true s
  | .smb7 z => memoryBitRecords z 7 true s
  | .bbr0 z _ | .bbr1 z _ | .bbr2 z _ | .bbr3 z _ | .bbr4 z _ | .bbr5 z _ | .bbr6 z _
  | .bbr7 z _ | .bbs0 z _ | .bbs1 z _ | .bbs2 z _ | .bbs3 z _ | .bbs4 z _ | .bbs5 z _
  | .bbs6 z _ | .bbs7 z _ => [zeroPageRead z s]
  | .pha => pushRecords s.sp [s.a]
  | .php => pushRecords s.sp [s.p ||| 0x30#8]
  | .phx => pushRecords s.sp [s.x]
  | .phy => pushRecords s.sp [s.y]
  | .pla | .plp | .plx | .ply => pullRecords s 1 s.sp
  | .jmp (.abs _) => []
  | .jmp (.ind base) => [reads s base, reads s (BitVec.ofNat 16 (base.toNat + 1))]
  | .jmp (.iax base) =>
    [reads s (BitVec.ofNat 16 (base.toNat + s.x.toNat)),
      reads s (BitVec.ofNat 16 (base.toNat + s.x.toNat + 1))]
  | .jsr _ => pushRecords s.sp [hiByte (s.pcAtFetch + 2), loByte (s.pcAtFetch + 2)]
  | .rts => pullRecords s 2 s.sp
  | .rti => pullRecords s 3 s.sp
  | .brk _ =>
    pushRecords s.sp [hiByte (s.pcAtFetch + 2), loByte (s.pcAtFetch + 2), s.p ||| 0x30#8]
      ++ [reads s 0xFFFE#16, reads s 0xFFFF#16]
  | .bpl _ | .bmi _ | .bvc _ | .bvs _ | .bcc _ | .bcs _ | .bne _ | .beq _ | .bra _
  | .clc | .sec | .cli | .sei | .cld | .sed | .clv | .inx | .iny | .dex | .dey
  | .tax | .tay | .tsx | .txa | .txs | .tya | .wai | .stp | .nop | .unmapped _ => []

/-- All the accesses of a handler, oldest first: its operand bytes, then the rest. -/
def handlerRecords (i : Instr) (s : State) : List TraceRecord :=
  operandRecords (s.pcAtFetch.toNat + s.decodeOffset) i.operandBytes ++ dataRecords i s

/-! ### Handlers other than the reference handlers -/

/-- What rule R111 asks of a handler, apart from how it moves the cursor: the request, the snapshot, the opcode, the
controller and the device are as before, memory changes only by recorded writes, DIRTY is set exactly where
there is one, and WAIT is not cleared. -/
def WithinContract (s t : State) : Prop :=
  t.pcAtFetch = s.pcAtFetch ∧ t.currentOpcode = s.currentOpcode
    ∧ t.interruptPending = s.interruptPending ∧ t.icState = s.icState
    ∧ t.device = s.device ∧ t.deviceCalls = s.deviceCalls
    ∧ (s.wait = true → t.wait = true)
    ∧ ∃ rs : List TraceRecord, t.trace = rs.reverse ++ s.trace ∧ t.mem = replay rs s.mem
      ∧ t.dirty = (s.dirty || anyWrite rs)

/-- The uppercase hexadecimal digits (rule R53). -/
def upperHex (d : Fin 16) : Char :=
  ['0', '1', '2', '3', '4', '5', '6', '7', '8', '9', 'A', 'B', 'C', 'D', 'E', 'F'].getD d '0'

/-! ### Decoding and fetching -/

/-- The bit number that a bit instruction's constructor stands for, its low nibble and its bit 7 (rule R89). -/
def bitFields : Instr → Option (Nat × Nat × Nat)
  | .rmb0 _ => some (0, 0x7, 0) | .rmb1 _ => some (1, 0x7, 0) | .rmb2 _ => some (2, 0x7, 0)
  | .rmb3 _ => some (3, 0x7, 0) | .rmb4 _ => some (4, 0x7, 0) | .rmb5 _ => some (5, 0x7, 0)
  | .rmb6 _ => some (6, 0x7, 0) | .rmb7 _ => some (7, 0x7, 0)
  | .smb0 _ => some (0, 0x7, 1) | .smb1 _ => some (1, 0x7, 1) | .smb2 _ => some (2, 0x7, 1)
  | .smb3 _ => some (3, 0x7, 1) | .smb4 _ => some (4, 0x7, 1) | .smb5 _ => some (5, 0x7, 1)
  | .smb6 _ => some (6, 0x7, 1) | .smb7 _ => some (7, 0x7, 1)
  | .bbr0 _ _ => some (0, 0xF, 0) | .bbr1 _ _ => some (1, 0xF, 0) | .bbr2 _ _ => some (2, 0xF, 0)
  | .bbr3 _ _ => some (3, 0xF, 0) | .bbr4 _ _ => some (4, 0xF, 0) | .bbr5 _ _ => some (5, 0xF, 0)
  | .bbr6 _ _ => some (6, 0xF, 0) | .bbr7 _ _ => some (7, 0xF, 0)
  | .bbs0 _ _ => some (0, 0xF, 1) | .bbs1 _ _ => some (1, 0xF, 1) | .bbs2 _ _ => some (2, 0xF, 1)
  | .bbs3 _ _ => some (3, 0xF, 1) | .bbs4 _ _ => some (4, 0xF, 1) | .bbs5 _ _ => some (5, 0xF, 1)
  | .bbs6 _ _ => some (6, 0xF, 1) | .bbs7 _ _ => some (7, 0xF, 1)
  | _ => none

/-- `Fetch()` run `n` times under a policy: the bytes it returns, and the state after. -/
def fetchMany (policy : CursorTopPolicy) : Nat → State → Host.Outcome (List Byte × State) Fault Refusal
  | 0, s => .next ([], s)
  | n + 1, s =>
    match s.fetch policy with
    | .next (b, t) =>
      match fetchMany policy n t with
      | .next (bs, u) => .next (b :: bs, u)
      | .fault f => .fault f
      | .refused r => .refused r
    | .fault f => .fault f
    | .refused r => .refused r

/-- A premise on the device: its next call neither writes nor asserts. -/
def QuietNext (s : State) : Prop :=
  s.device = .scripted [] ∨ ∃ later, s.device = .scripted (⟨[], false⟩ :: later)

/-- A state's two stack pulls read as a 16-bit value, low byte first (rules R223 and R245). -/
def stackWord (s : State) (k : Nat) : Addr :=
  word (s.mem.read (State.stackAddr (s.sp + BitVec.ofNat 8 (k + 1))))
    (s.mem.read (State.stackAddr (s.sp + BitVec.ofNat 8 (k + 2))))

/-- RMBn and SMBn, the bit each writes and what it writes there (rules R207 and R208). -/
def memoryBitWrites (z : Byte) : List (Instr × Nat × Bool) :=
  [(Instr.rmb0 z, 0, false), (.rmb1 z, 1, false), (.rmb2 z, 2, false),
    (.rmb3 z, 3, false), (.rmb4 z, 4, false), (.rmb5 z, 5, false), (.rmb6 z, 6, false),
    (.rmb7 z, 7, false), (.smb0 z, 0, true), (.smb1 z, 1, true), (.smb2 z, 2, true),
    (.smb3 z, 3, true), (.smb4 z, 4, true), (.smb5 z, 5, true), (.smb6 z, 6, true),
    (.smb7 z, 7, true)]

/-- The branches and their conditions on P (rules R210 to R218). -/
def branchConditions (s : State) (rel : Byte) : List (Instr × Bool) :=
  [(Instr.bpl rel, !s.flag .N), (.bmi rel, s.flag .N), (.bvc rel, !s.flag .V),
    (.bvs rel, s.flag .V), (.bcc rel, !s.flag .C), (.bcs rel, s.flag .C),
    (.bne rel, !s.flag .Z), (.beq rel, s.flag .Z), (.bra rel, true)]

/-- BBRn and BBSn, the bit each tests and the value it is taken on (rules R219 and R220). -/
def bitBranches (z rel : Byte) : List (Instr × Nat × Bool) :=
  [(Instr.bbr0 z rel, 0, false), (.bbr1 z rel, 1, false),
    (.bbr2 z rel, 2, false), (.bbr3 z rel, 3, false), (.bbr4 z rel, 4, false),
    (.bbr5 z rel, 5, false), (.bbr6 z rel, 6, false), (.bbr7 z rel, 7, false),
    (.bbs0 z rel, 0, true), (.bbs1 z rel, 1, true), (.bbs2 z rel, 2, true),
    (.bbs3 z rel, 3, true), (.bbs4 z rel, 4, true), (.bbs5 z rel, 5, true),
    (.bbs6 z rel, 6, true), (.bbs7 z rel, 7, true)]

/-- The flag instructions, the flag each writes and what it writes there (rules R231 to R237). -/
def flagWrites : List (Instr × Flag × Bool) :=
  [(Instr.clc, Flag.C, false), (.sec, .C, true), (.cli, .I, false),
    (.sei, .I, true), (.cld, .D, false), (.sed, .D, true), (.clv, .V, false)]

end Sys2Proof.Claims

open Sys2Proof Sys2Proof.Machine Sys2Proof.Claims

/-! ### Encoding -/

/-- Rules R75 to R83: words written out from the opcode lists decode to the instructions they stand for. -/
def Obligations.SpecWordsDecode : Prop :=
  decode [0x69#8, 0x12#8] = .ok (.adc (.imm 0x12)) []
    ∧ decode [0x9D#8, 0x34#8, 0x12#8] = .ok (.sta (.abx 0x1234)) []
    ∧ decode [0xB6#8, 0xF0#8] = .ok (.ldx (.mem (.zpy 0xF0))) []
    ∧ decode [0x7C#8, 0x00#8, 0x30#8] = .ok (.jmp (.iax 0x3000)) []
    ∧ decode [0x8F#8, 0x10#8, 0xFD#8] = .ok (.bbs0 0x10 0xFD) []
    ∧ decode [0xF7#8, 0x10#8] = .ok (.smb7 0x10) []
    ∧ decode [0x00#8, 0xEE#8, 0xEA#8] = .ok (.brk 0xEE) [0xEA#8]
    ∧ decode [0x5C#8, 0x34#8, 0x12#8] = .ok (.unmapped 0x5C) [0x34#8, 0x12#8]

/-- Rules R75, R77, R82 and R88: decoding and encoding are each other's inverse on the well-formed instructions,
with every operand at every value and whatever bytes follow. -/
def Obligations.DecodeInvertsEncode : Prop :=
  ∀ (bs : List Byte) (i : Instr) (rest : List Byte),
    decode bs = .ok i rest ↔ i.WellFormed ∧ bs = encode i ++ rest

/-- Rules R83 and R84: every byte value starts an instruction of one to three bytes, the unmapped no-op exactly for
the 44 values that R83 lists; so a decoding is rejected only where bytes are missing. -/
def Obligations.EveryByteIsAnInstruction : Prop :=
  ∀ (op b1 b2 : Byte) (rest : List Byte),
    ∃ i, decode (op :: b1 :: b2 :: rest) = .ok i ((op :: b1 :: b2 :: rest).drop i.length)
      ∧ i.WellFormed ∧ 1 ≤ i.length ∧ i.length ≤ 3
      ∧ (i = .unmapped op ↔ op ∈ Config.unmappedBytes)
      ∧ (op ∈ Config.unmappedBytes → i.length = 1)

/-- Rule R89: the bit number, the operation and the polarity of RMB, SMB, BBR and BBS are the fields of the opcode
byte, so the number the handler uses is `current_opcode[6:4]`. -/
def Obligations.BitInstructionFields : Prop :=
  ∀ (op b1 b2 : Byte) (n low pol : Nat),
    bitFields (Decode.instrOf op b1 b2) = some (n, low, pol)
      ↔ (low = 0x7 ∨ low = 0xF) ∧ op.toNat % 16 = low ∧ op.toNat / 16 % 8 = n ∧ op.toNat / 128 = pol

/-- Rule R104 (log 14): the operand bytes of the instruction in flight are what `Fetch()` returns, call by call, and
consuming them is what those calls do. -/
def Obligations.OperandsComeFromFetch : Prop :=
  ∀ s : State,
    fetchMany .wrap (s.instructionInFlight.length - 1) s
      = .next (s.instructionInFlight.operandBytes,
          State.consumeAll s.instructionInFlight.operandBytes s)

/-- Rules R78, R79, R80 and R140: the effective address of every memory mode, zero-page arithmetic wrapping within the page
and absolute arithmetic mod 2^16, the targets of the three JMP forms, and the value an operand has. -/
def Obligations.EffectiveAddresses : Prop :=
  ∀ (s : State) (z : Byte) (base : Addr),
    (MemMode.zp z).address s = BitVec.ofNat 16 z.toNat
      ∧ (MemMode.zpx z).address s = BitVec.ofNat 16 ((z.toNat + s.x.toNat) % 256)
      ∧ (MemMode.zpy z).address s = BitVec.ofNat 16 ((z.toNat + s.y.toNat) % 256)
      ∧ (MemMode.abs base).address s = base
      ∧ (MemMode.abx base).address s = BitVec.ofNat 16 (base.toNat + s.x.toNat)
      ∧ (MemMode.aby base).address s = BitVec.ofNat 16 (base.toNat + s.y.toNat)
      ∧ (MemMode.izx z).address s
          = word (s.mem.read (BitVec.ofNat 16 ((z.toNat + s.x.toNat) % 256)))
              (s.mem.read (BitVec.ofNat 16 ((z.toNat + s.x.toNat + 1) % 256)))
      ∧ (MemMode.izy z).address s
          = BitVec.ofNat 16 ((word (s.mem.read (BitVec.ofNat 16 z.toNat))
              (s.mem.read (BitVec.ofNat 16 ((z.toNat + 1) % 256)))).toNat + s.y.toNat)
      ∧ (MemMode.izp z).address s
          = word (s.mem.read (BitVec.ofNat 16 z.toNat))
              (s.mem.read (BitVec.ofNat 16 ((z.toNat + 1) % 256)))
      ∧ (JumpTarget.abs base).address s = base
      ∧ (JumpTarget.ind base).address s
          = word (s.mem.read base) (s.mem.read (BitVec.ofNat 16 (base.toNat + 1)))
      ∧ (JumpTarget.iax base).address s
          = word (s.mem.read (BitVec.ofNat 16 (base.toNat + s.x.toNat)))
              (s.mem.read (BitVec.ofNat 16 (base.toNat + s.x.toNat + 1)))
      ∧ (Source.imm z).value s = z ∧ RmwTarget.acc.value s = s.a
      ∧ (∀ m : MemMode, (Source.mem m).value s = s.mem.read (m.address s)
          ∧ (RmwTarget.mem m).value s = s.mem.read (m.address s))

/-! ### The dispatch loop -/

/-- Rules R101 and R102: FETCH. -/
def Obligations.FetchStartsIteration : Prop :=
  ∀ s : State,
    s.fetchPhase = { s with
      dirty := false
      wait := false
      branchDisplacement := 0
      pcAtFetch := s.pc
      currentOpcode := s.mem.read s.pc
      decodeOffset := 1
      trace := ⟨s.pc, .read, s.mem.read s.pc⟩ :: s.trace
      phase := .dispatch }

/-- Rules R106 and R127: where the three bytes from pc on decode to an instruction, a step from FETCH runs its handler
on the state after FETCH and then the rest of the iteration. That the bytes are decoded before the handler runs is
the model's choice (log 14). Under other parameters (rule R8) the opcode byte alone selects: outside `mappedSet`
the no-op, inside it the handler that `handlers` gives, and the reference handler is the default's where no cursor
read is blocked. The form of another handler is the model's choice (log 27). -/
def Obligations.StepRunsDecodedInstruction : Prop :=
  ∀ s : State, s.phase = .fetch →
    (∀ (i : Instr) (rest : List Byte),
      decode [s.mem.read s.pc, s.mem.read (s.pc + 1), s.mem.read (s.pc + 2)] = .ok i rest →
      step s = match exec i s.fetchPhase with
        | .next t => .next t.afterHandler
        | .fault f => .fault f
        | .refused r => .refused r)
      ∧ ∀ P : Params,
        (P.mappedSet (s.mem.read s.pc) = false → stepUnder P s = .next s.fetchPhase.afterHandler)
          ∧ (P.mappedSet (s.mem.read s.pc) = true → P.handlers (s.mem.read s.pc) = .reference →
              P.cursorTopPolicy = .wrap → s.mem.read s.pc ∉ Config.unmappedBytes →
              stepUnder P s = step s)
          ∧ ∀ body : HandlerProgram, P.mappedSet (s.mem.read s.pc) = true →
              P.handlers (s.mem.read s.pc) = .program body →
              stepUnder P s = match body.run P.cursorTopPolicy s.fetchPhase with
                | .next t => .next t.afterHandler
                | .fault f => .fault f
                | .refused r => .refused r

/-- Rules R100, R117 and R127: what follows a handler is RESOLVE_PC, then IO_SYNC, which is one device call that sees the
instruction's DIRTY and then clears it, then a poll that has to wait or INTERRUPT_CHECK; after STP's `halt`
it is the draw of the pc and HALT_FLUSH. That one step runs all of it is the model's reading (log 1). -/
def Obligations.AfterHandlerOrder : Prop :=
  ∀ t : State,
    (t.phase ≠ .haltFlush → t.afterHandler = if t.resolvePc.ioSync.wait = true
        ∧ t.resolvePc.ioSync.interruptPending = false
      then { t.resolvePc.ioSync with phase := .waitPoll } else t.resolvePc.ioSync.interruptCheck)
      ∧ (t.phase = .haltFlush → t.afterHandler = t.drawHaltPc.haltFlush)
      ∧ (t.afterHandler.phase = .fetch ∨ t.afterHandler.phase = .waitPoll
          ∨ t.afterHandler.phase = .halted)
      ∧ t.resolvePc.ioSync = { t.resolvePc.deviceHandle with
          dirty := false
          phase := if t.wait then .waitPoll else .interruptCheck }

/-- Rules R125 and R260: HALTED is terminal, and nothing else stops the machine but, under the policy `fault`, a cursor
read past 0xFFFF (rules R104 and R105), under any parameters of rule R8. Under the defaults with the policy
`fault` a step from FETCH stops so exactly where the instruction's bytes run past 0xFFFF. That asking a halted
core for a step is a fault is the model's choice (log 16). -/
def Obligations.OnlyHaltedStops : Prop :=
  ∀ s : State,
    (s.phase = .halted → step s = .fault .halted)
      ∧ (s.phase ≠ .halted → ∃ t, step s = .next t)
      ∧ (∀ P : Params,
          (s.phase = .halted → stepUnder P s = .fault .halted)
            ∧ (s.phase ≠ .halted → (∃ t, stepUnder P s = .next t)
                ∨ P.cursorTopPolicy = .fault ∧ ∃ (snapshot : Addr) (offset : Nat),
                    0xFFFF < snapshot.toNat + offset
                      ∧ stepUnder P s = .fault (.cursorBeyondTop snapshot offset)))
      ∧ (s.phase = .fetch →
          let i := Decode.instrOf (s.mem.read s.pc) (s.mem.read (s.pc + 1)) (s.mem.read (s.pc + 2))
          stepUnder { Params.default with cursorTopPolicy := .fault } s
            = if s.pc.toNat + i.length ≤ 0x10000 then step s
              else .fault (.cursorBeyondTop s.pc (0x10000 - s.pc.toNat)))

/-- The invariants of the model that every step keeps, for a state between two steps (log 1): `Inv` gathers rules R30, R31,
R36, R100, R117, R118 and R124 and the memory's canonical form (log 6); `LoopInv`, which leaves out the cursor's
range, is kept whatever the parameters of rule R8 are, so whatever the handlers compute (their form is log 27). -/
def Obligations.StepKeepsInvariant : Prop :=
  ∀ s t : State,
    (Inv s → step s = .next t → Inv t)
      ∧ ∀ P : Params, LoopInv s → stepUnder P s = .next t → LoopInv t

/-- The invariant holds at `State.reset`. It rests on reset values that are the model's choice (logs 6 and 7). -/
def Obligations.ResetMeetsInvariant : Prop := Inv State.reset

/-- Rules R291 and R292: a launched state has the launch record's values, FETCH, armed; the request and the memory are
what `init()` left, and the request is clear where `init()` did not assert it. The launch record is the model's own
structure (log 17). -/
def Obligations.LaunchState : Prop :=
  ∀ (l : Launch) (d : DeviceSource) (init : DeviceReply),
    let s := l.start d init
    s.a = l.a ∧ s.x = l.x ∧ s.y = l.y ∧ s.sp = l.sp ∧ s.p = l.p ∧ s.pc = l.pc
      ∧ s.mem = l.memory.writes init.writes ∧ s.interruptPending = init.asserts
      ∧ s.phase = .fetch ∧ s.icState = .armed ∧ (l.memory.wf → s.mem.wf)

/-- Rules R110 and R111: what no handler does. It never fails; it neither changes nor reads the request; it leaves the
snapshot, the opcode, the controller and the device alone; it moves the cursor only by its operand bytes, sets
DIRTY exactly with a recorded write, clears neither DIRTY nor WAIT, and sets WAIT only as WAI (rule R33). The same
holds of any handler that the parameter `handlers` of rule R8 can hold, where only at WAI's opcode does one set WAIT
and only at STP's does one halt (rules R33 and R108). The form of such a handler is the model's choice (log 27). -/
def Obligations.HandlersKeepContract : Prop :=
  (∀ (i : Instr) (s : State), ∃ t, exec i s = .next t ∧ WithinContract s t
      ∧ t.decodeOffset + 1 = s.decodeOffset + i.length
      ∧ (i ≠ .wai → t.wait = s.wait)
      ∧ ∀ b, exec i { s with interruptPending := b } = .next { t with interruptPending := b })
    ∧ ∀ (body : HandlerProgram) (s : State), ∃ t, body.run .wrap s = .next t ∧ WithinContract s t
      ∧ s.decodeOffset ≤ t.decodeOffset
      ∧ t.decodeOffset + s.trace.length ≤ s.decodeOffset + t.trace.length
      ∧ (t.phase = s.phase ∨ s.currentOpcode = 0xDB#8 ∧ t.phase = .haltFlush)
      ∧ (t.wait = s.wait ∨ s.currentOpcode = 0xCB#8 ∧ t.wait = true)
      ∧ ∀ b, body.run .wrap { s with interruptPending := b } = .next { t with interruptPending := b }

/-- Rule R87: each class writes the pc, the displacement, WAIT or the phase only as its class says. -/
def Obligations.HandlersKeepPcClass : Prop :=
  ∀ (i : Instr) (s t : State), exec i s = .next t →
    (i.pcClass ≠ .absolute → t.pc = s.pc)
      ∧ (i.pcClass ≠ .relative → t.branchDisplacement = s.branchDisplacement)
      ∧ (i.pcClass ≠ .wait → t.wait = s.wait)
      ∧ (i.pcClass ≠ .halt → t.phase = s.phase)
      ∧ (i.pcClass = .wait → t.wait = true)
      ∧ (i.pcClass = .halt → t.phase = .haltFlush)

/-- Rules R51, R52 and R54: the records a handler emits account for all it did to memory. Each operand and data read
shows the byte then held, memory changes only by the recorded writes, and DIRTY is set exactly where
there is one. -/
def Obligations.TraceAccountsForMemory : Prop :=
  ∀ s t : State, exec s.instructionInFlight s = .next t →
    ∃ rs : List TraceRecord, t.trace = rs.reverse ++ s.trace
      ∧ Accounts rs s.mem ∧ t.mem = replay rs s.mem ∧ t.dirty = (s.dirty || anyWrite rs)

/-- Rules R54 and R140 (decision D28): a handler makes exactly the accesses its rule writes, at those addresses, in that
order, and no others: the operand bytes first (rules R104, R219 and R222), a pointer's low byte before its
high one (rule R78), one read and one write of a read-modify-write byte, pushes descending and pulls
ascending, and the vector last. -/
def Obligations.NoDummyAccesses : Prop :=
  ∀ (i : Instr) (s : State),
    ∃ t, exec i s = .next t ∧ t.trace = (handlerRecords i s).reverse ++ s.trace

/-- Rules R112 and R113: RESOLVE_PC advances by the encoded length where the pc equals the snapshot and adds the
displacement in any case, mod 2^16. -/
def Obligations.ResolvePcRule : Prop :=
  ∀ s : State,
    s.resolvePc = { s with
      pc := s.resolvePc.pc
      phase := .ioSync }
      ∧ (s.pc = s.pcAtFetch → ((s.resolvePc.pc.toNat : Int)
          = ((s.pcAtFetch.toNat : Int) + s.decodeOffset + s.branchDisplacement) % 65536))
      ∧ (s.pc ≠ s.pcAtFetch → ((s.resolvePc.pc.toNat : Int)
          = ((s.pc.toNat : Int) + s.branchDisplacement) % 65536))

/-- Rule R114 (and R115): the pc after RESOLVE_PC, by class, for a handler run right after FETCH: a sequential or waiting
instruction and a branch not taken end L further, a taken branch L and the displacement further, an
absolute transfer at its target, or L further where the target is the instruction's own address. -/
def Obligations.PcAfterResolve : Prop :=
  ∀ (i : Instr) (s t : State), exec i s.fetchPhase = .next t →
    (i.pcClass = .sequential ∨ i.pcClass = .wait →
        t.resolvePc.pc = BitVec.ofNat 16 (s.pc.toNat + i.length))
      ∧ (i.pcClass = .relative →
          t.resolvePc.pc = BitVec.ofInt 16 (s.pc.toNat + i.length + t.branchDisplacement))
      ∧ (i.pcClass = .relative → t.branchDisplacement = 0 →
          t.resolvePc.pc = BitVec.ofNat 16 (s.pc.toNat + i.length))
      ∧ (i.pcClass = .absolute → t.pc ≠ s.pc → t.resolvePc.pc = t.pc)
      ∧ (i.pcClass = .absolute → t.pc = s.pc →
          t.resolvePc.pc = BitVec.ofNat 16 (s.pc.toNat + i.length))

/-! ### The device, the wait and the interrupt controller -/

/-- Rules R71 and R123: all a device call can do. It may store bytes, it may set the request and never clears it, it
leaves everything else alone, and its stores make no record and do not set DIRTY; and every behaviour the
rule allows is one of the model's, for some script of replies. The script is the model's own field (log 2). -/
def Obligations.DeviceCallFrame : Prop :=
  ∀ s : State,
    ∃ (ws : List (Addr × Byte)) (asserted : Bool),
      s.deviceHandle = { s with
        mem := s.mem.writes ws
        interruptPending := s.interruptPending || asserted
        device := s.device.rest
        deviceCalls := s.deviceCalls + 1 }
        ∧ (∀ a, (∀ w ∈ ws, w.1 ≠ a) → s.deviceHandle.mem.read a = s.mem.read a)
        ∧ (∀ (vs : List (Addr × Byte)) (b : Bool), ∃ d : DeviceSource,
            ({ s with device := d } : State).deviceHandle = { s with
              mem := s.mem.writes vs
              interruptPending := s.interruptPending || b
              device := .scripted []
              deviceCalls := s.deviceCalls + 1 })

/-- Rule R118: a step in WAIT_POLL. Where WAIT is set and no request is pending it makes exactly one device call, clears
DIRTY, emits no record, and goes on waiting unless the request came; otherwise it makes no call and goes to
INTERRUPT_CHECK. One poll for each step is the model's reading (log 1). -/
def Obligations.WaitPollRule : Prop :=
  ∀ s : State, s.phase = .waitPoll →
    (s.wait = true → s.interruptPending = false →
      ∃ t, step s = .next t ∧ t.deviceCalls = s.deviceCalls + 1
        ∧ (s.deviceHandle.interruptPending = false →
            t = { s.deviceHandle with dirty := false } ∧ t.trace = s.trace ∧ t.pc = s.pc)
        ∧ (s.deviceHandle.interruptPending = true →
            t = ({ s.deviceHandle with dirty := false } : State).interruptCheck))
      ∧ (s.wait = false ∨ s.interruptPending = true → step s = .next s.interruptCheck)

/-- Rules R119 and R300: a wait that no request ends goes on for ever, whatever the device. As long as no call sets
the request, every number of steps leaves the core in WAIT_POLL with nothing fetched and one device call for
each step. One poll for each step is the model's reading (log 1). -/
def Obligations.WaitWithoutRequestNeverEnds : Prop :=
  ∀ (s : State) (k : Nat), s.phase = .waitPoll → s.wait = true → s.interruptPending = false →
    (∀ j u, j < k → Leads j s u → u.deviceHandle.interruptPending = false) →
    ∃ t, Leads k s t ∧ t.phase = .waitPoll ∧ t.wait = true ∧ t.interruptPending = false
      ∧ t.trace = s.trace ∧ t.pc = s.pc ∧ t.deviceCalls = s.deviceCalls + k

/-- Rules R264 and R269: INTERRUPT_CHECK injects exactly where a request is pending and I is clear, and otherwise only
goes to FETCH. -/
def Obligations.InjectionEligibility : Prop :=
  ∀ s : State,
    (s.interruptPending = true ∧ s.flag .I = false →
        s.interruptCheck = { s.inject with phase := .fetch })
      ∧ (¬ (s.interruptPending = true ∧ s.flag .I = false) →
        s.interruptCheck = { s with phase := .fetch })

/-- Rule R265 (and R266, R267): injection pushes pc high, pc low and P exactly as it stands, clears the request, goes to
the address the vector holds at that moment and sets I; D and every other flag, A, X and Y stay. The first clause
names every field that may change: no device call, no move of the cursor or the phase, no draw. -/
def Obligations.InjectionEffects : Prop :=
  ∀ s : State,
    s.inject = { s with
      mem := s.inject.mem
      sp := s.inject.sp
      p := s.inject.p
      pc := s.inject.pc
      dirty := true
      interruptPending := false
      icState := .armed
      trace := s.inject.trace }
      ∧ PushesFrame [hiByte s.pc, loByte s.pc, s.p] s s.inject
      ∧ s.inject.pc = vectorTarget s ∧ s.inject.flag .I = true ∧ FlagsKept [.I] s s.inject
      ∧ s.inject.trace = [⟨0xFFFF#16, .read, s.mem.read 0xFFFF#16⟩,
            ⟨0xFFFE#16, .read, s.mem.read 0xFFFE#16⟩,
            ⟨State.stackAddr (s.sp - 2), .write, s.p⟩,
            ⟨State.stackAddr (s.sp - 1), .write, loByte s.pc⟩,
            ⟨State.stackAddr s.sp, .write, hiByte s.pc⟩] ++ s.trace

/-- Rule R270: RTI is the exact reverse of injection. -/
def Obligations.RtiReversesInjection : Prop :=
  ∀ s : State, s.mem.wf →
    ∃ t, exec .rti s.inject = .next t ∧ t.pc = s.pc ∧ t.p = s.p ∧ t.sp = s.sp
      ∧ t.a = s.a ∧ t.x = s.x ∧ t.y = s.y

/-- Rule R262: only injection clears the request. A step that starts with the request pending and ends with it clear
ended in an injection. -/
def Obligations.RequestClearedOnlyByInjection : Prop :=
  ∀ s t : State, s.interruptPending = true → step s = .next t → t.interruptPending = false →
    ∃ u : State, u.interruptPending = true ∧ u.flag .I = false
      ∧ t = { u.inject with phase := .fetch }

/-- Rules R108, R124 and R125: a step that runs STP makes one device call, leaves DIRTY clear, emits no record but the
opcode's, injects nothing, leaves one of the two pc values (log 12: which one is a free value) and ends the run. -/
def Obligations.StpEndsTheRun : Prop :=
  ∀ s : State, s.phase = .fetch → s.mem.read s.pc = 0xDB#8 →
    ∃ t, step s = .next t ∧ t.phase = .halted ∧ (t.pc = s.pc ∨ t.pc = s.pc + 1)
      ∧ t.deviceCalls = s.deviceCalls + 1 ∧ t.dirty = false
      ∧ t.trace = ⟨s.pc, .read, 0xDB#8⟩ :: s.trace
      ∧ RegsKept s t ∧ t.p = s.p
      ∧ (s.interruptPending = true → t.interruptPending = true)
      ∧ step t = .fault .halted

/-- Rules R129 and R249 with the premises of conflict C9: an unmapped byte, a device that writes and asserts nothing and
no injection. One iteration advances pc by 1 and changes no register, flag or memory byte. Which bytes are
unmapped is the parameter `mappedSet` (rule R8), by default the 44 of rule R83. -/
def Obligations.UnmappedIterationOnlyAdvancesPc : Prop :=
  ∀ s : State, s.phase = .fetch → QuietNext s → (s.interruptPending = false ∨ s.flag .I = true) →
    ∃ t, t.pc = s.pc + 1 ∧ t.phase = .fetch ∧ RegsKept s t ∧ t.p = s.p
      ∧ t.mem = s.mem ∧ t.deviceCalls = s.deviceCalls + 1
      ∧ t.trace = ⟨s.pc, .read, s.mem.read s.pc⟩ :: s.trace
      ∧ (s.mem.read s.pc ∈ Config.unmappedBytes → step s = .next t)
      ∧ ∀ P : Params, P.mappedSet (s.mem.read s.pc) = false → stepUnder P s = .next t

/-! ### Memory, stack and trace -/

/-- Rules R58 to R60: a push stores at the stack page plus SP and leaves SP one less within the page, a pull undoes it
without storing, and both wrap silently within page 0x01. -/
def Obligations.PushThenPull : Prop :=
  ∀ (s : State) (v : Byte),
    StoresByte (BitVec.ofNat 16 (0x100 + s.sp.toNat)) v s (s.push v)
      ∧ (s.push v).sp.toNat = (s.sp.toNat + 255) % 256
      ∧ (s.mem.wf → (s.push v).pull.1 = v) ∧ (s.push v).pull.2.sp = s.sp
      ∧ (s.push v).pull.2.mem = (s.push v).mem
      ∧ s.pull.1 = s.mem.read (BitVec.ofNat 16 (0x100 + (s.sp.toNat + 1) % 256))
      ∧ s.pull.2.sp.toNat = (s.sp.toNat + 1) % 256 ∧ s.pull.2.mem = s.mem

/-- The canonical form, the model's own (log 6), does its work: two memories in it that read alike at every address are
the same data. -/
def Obligations.CanonicalMemoryIsDeterminedByItsBytes : Prop :=
  ∀ m n : Memory, m.wf → n.wf → (∀ a : Addr, m.read a = n.read a) → m = n

/-- Rule R53: a trace line is four uppercase hexadecimal digits, the marker, two digits and a newline; the digits read
back as the record's address and value. -/
def Obligations.TraceLineFormat : Prop :=
  ∀ r : TraceRecord, ∃ d3 d2 d1 d0 e1 e0 : Fin 16,
    r.line = [upperHex d3, upperHex d2, upperHex d1, upperHex d0, ' ',
        (if r.dir = .read then 'r' else 'W'), ' ', upperHex e1, upperHex e0, '\n']
      ∧ d3.val * 4096 + d2.val * 256 + d1.val * 16 + d0.val = r.addr.toNat
      ∧ e1.val * 16 + e0.val = r.value.toNat

/-! ### Arithmetic, compare and shift -/

/-- Rule R141 with D clear: ADC completes with the sum of A, the operand and C in A; C is the carry out of bit 7, V the
rule's exclusive-or formula, N and Z come from the sum; nothing else changes. -/
def Obligations.AdcBinary : Prop :=
  ∀ (src : Source) (s : State), s.flag .D = false →
    ∃ t, exec (.adc src) s = .next t
      ∧ t.a.toNat = (s.a.toNat + (src.value s).toNat + (s.flag .C).toNat) % 256
      ∧ t.flag .C = decide (s.a.toNat + (src.value s).toNat + (s.flag .C).toNat > 0xFF)
      ∧ t.flag .V = (((s.a ^^^ t.a) &&& (src.value s ^^^ t.a) &&& 0x80#8) != 0)
      ∧ NzFrom t.a t ∧ FlagsKept [.N, .Z, .C, .V] s t
      ∧ t.x = s.x ∧ t.y = s.y ∧ t.sp = s.sp ∧ MemoryKept s t ∧ SequentialHandler (.adc src) s t

/-- Rule R142 with D clear: SBC completes with A less the operand less the borrow; C means no borrow. -/
def Obligations.SbcBinary : Prop :=
  ∀ (src : Source) (s : State), s.flag .D = false →
    ∃ t, exec (.sbc src) s = .next t
      ∧ (t.a.toNat : Int)
          = ((s.a.toNat : Int) - (src.value s).toNat - (1 - (s.flag .C).toNat)) % 256
      ∧ t.flag .C
          = decide ((s.a.toNat : Int) - (src.value s).toNat - (1 - (s.flag .C).toNat) ≥ 0)
      ∧ t.flag .V = (((s.a ^^^ t.a) &&& ((src.value s ^^^ 0xFF#8) ^^^ t.a) &&& 0x80#8) != 0)
      ∧ NzFrom t.a t ∧ FlagsKept [.N, .Z, .C, .V] s t
      ∧ t.x = s.x ∧ t.y = s.y ∧ t.sp = s.sp ∧ MemoryKept s t ∧ SequentialHandler (.sbc src) s t

/-- The formulas of rules R141 and R142 mean signed overflow: V is set exactly where the exact two's-complement result
does not fit eight bits. -/
def Obligations.OverflowIsSignedOverflow : Prop :=
  ∀ (src : Source) (s t : State), s.flag .D = false →
    (exec (.adc src) s = .next t →
        t.flag .V = decide ¬ (-128 ≤ s.a.toInt + (src.value s).toInt + (s.flag .C).toNat
          ∧ s.a.toInt + (src.value s).toInt + (s.flag .C).toNat ≤ 127))
      ∧ (exec (.sbc src) s = .next t →
        t.flag .V = decide ¬ (-128 ≤ s.a.toInt - (src.value s).toInt - (1 - (s.flag .C).toNat)
          ∧ s.a.toInt - (src.value s).toInt - (1 - (s.flag .C).toNat) ≤ 127))

/-- Rule R143 with D set: ADC and SBC complete whatever the operands are. On valid BCD operands A and C are the decimal
result; N and Z come from A in any case; V, and A and C on other operands, are free values (log 11). Nothing else
changes but the count of draws. -/
def Obligations.DecimalArithmetic : Prop :=
  ∀ (src : Source) (s : State), s.flag .D = true →
    (∃ t, exec (.adc src) s = .next t
      ∧ (Alu.validBcd s.a = true → Alu.validBcd (src.value s) = true →
          Alu.validBcd t.a = true
            ∧ Alu.bcd t.a = (Alu.bcd s.a + Alu.bcd (src.value s) + (s.flag .C).toNat) % 100
            ∧ t.flag .C
                = decide (Alu.bcd s.a + Alu.bcd (src.value s) + (s.flag .C).toNat ≥ 100))
      ∧ NzFrom t.a t ∧ FlagsKept [.N, .Z, .C, .V] s t
      ∧ t.x = s.x ∧ t.y = s.y ∧ t.sp = s.sp ∧ MemoryKept s t ∧ KeepsCore (.adc src) s t
      ∧ t.pc = s.pc ∧ t.branchDisplacement = s.branchDisplacement ∧ t.wait = s.wait
      ∧ t.phase = s.phase ∧ t.draws = s.draws + 1)
    ∧ (∃ t, exec (.sbc src) s = .next t
      ∧ (Alu.validBcd s.a = true → Alu.validBcd (src.value s) = true →
          Alu.validBcd t.a = true
            ∧ (Alu.bcd t.a : Int)
                = ((Alu.bcd s.a : Int) - Alu.bcd (src.value s) - (1 - (s.flag .C).toNat)) % 100
            ∧ t.flag .C = decide
                ((Alu.bcd s.a : Int) - Alu.bcd (src.value s) - (1 - (s.flag .C).toNat) ≥ 0))
      ∧ NzFrom t.a t ∧ FlagsKept [.N, .Z, .C, .V] s t
      ∧ t.x = s.x ∧ t.y = s.y ∧ t.sp = s.sp ∧ MemoryKept s t ∧ KeepsCore (.sbc src) s t
      ∧ t.pc = s.pc ∧ t.branchDisplacement = s.branchDisplacement ∧ t.wait = s.wait
      ∧ t.phase = s.phase ∧ t.draws = s.draws + 1)

/-- Rules R144 to R146: CMP, CPX and CPY complete with C for not below (unsigned), Z for equal and N bit 7 of the
difference mod 256; no register changes. -/
def Obligations.CompareFlags : Prop :=
  ∀ (src : Source) (s : State) (i : Instr) (reg : Byte),
    (i = .cmp src ∧ reg = s.a) ∨ (i = .cpx src ∧ reg = s.x) ∨ (i = .cpy src ∧ reg = s.y) →
    ∃ t, exec i s = .next t
      ∧ t.flag .C = decide ((src.value s).toNat ≤ reg.toNat)
      ∧ t.flag .Z = decide (reg = src.value s)
      ∧ t.flag .N = decide (128 ≤ ((reg.toNat : Int) - (src.value s).toNat) % 256)
      ∧ FlagsKept [.N, .Z, .C] s t ∧ RegsKept s t ∧ MemoryKept s t ∧ SequentialHandler i s t

/-- Rules R147 to R150: the shifts and rotates complete, in A or in memory, with the shifted value, the bit shifted out in
C, and N and Z from the result. -/
def Obligations.ShiftResults : Prop :=
  ∀ (tg : RmwTarget) (s : State) (i : Instr) (r : Nat) (out : Bool),
    (i = .asl tg ∧ r = (tg.value s).toNat * 2 % 256 ∧ out = (tg.value s).getLsbD 7)
      ∨ (i = .lsr tg ∧ r = (tg.value s).toNat / 2 ∧ out = (tg.value s).getLsbD 0)
      ∨ (i = .rol tg ∧ r = ((tg.value s).toNat * 2 + (s.flag .C).toNat) % 256
          ∧ out = (tg.value s).getLsbD 7)
      ∨ (i = .ror tg ∧ r = (tg.value s).toNat / 2 + (s.flag .C).toNat * 128
          ∧ out = (tg.value s).getLsbD 0) →
    ∃ t v, exec i s = .next t ∧ v.toNat = r ∧ RmwResult tg v s t ∧ t.flag .C = out ∧ NzFrom v t
      ∧ FlagsKept [.N, .Z, .C] s t ∧ t.x = s.x ∧ t.y = s.y ∧ t.sp = s.sp ∧ SequentialHandler i s t

/-! ### Loads, stores, stack and transfers -/

/-- Rules R171 to R173: LDA, LDX and LDY complete with the operand in the register and N and Z from it. -/
def Obligations.LoadResults : Prop :=
  ∀ (src : Source) (s : State),
    (∃ t, exec (.lda src) s = .next t ∧ t.a = src.value s ∧ t.x = s.x ∧ t.y = s.y ∧ t.sp = s.sp
      ∧ NzFrom (src.value s) t ∧ FlagsKept [.N, .Z] s t ∧ MemoryKept s t
      ∧ SequentialHandler (.lda src) s t)
    ∧ (∃ t, exec (.ldx src) s = .next t ∧ t.x = src.value s ∧ t.a = s.a ∧ t.y = s.y ∧ t.sp = s.sp
      ∧ NzFrom (src.value s) t ∧ FlagsKept [.N, .Z] s t ∧ MemoryKept s t
      ∧ SequentialHandler (.ldx src) s t)
    ∧ (∃ t, exec (.ldy src) s = .next t ∧ t.y = src.value s ∧ t.a = s.a ∧ t.x = s.x ∧ t.sp = s.sp
      ∧ NzFrom (src.value s) t ∧ FlagsKept [.N, .Z] s t ∧ MemoryKept s t
      ∧ SequentialHandler (.ldy src) s t)

/-- Rules R174 to R177 and R52: STA, STX, STY and STZ complete with one byte stored at the effective address and no
register or flag changed. -/
def Obligations.StoreResults : Prop :=
  ∀ (m : MemMode) (s : State) (i : Instr) (v : Byte),
    (i = .sta m ∧ v = s.a) ∨ (i = .stx m ∧ v = s.x) ∨ (i = .sty m ∧ v = s.y)
      ∨ (i = .stz m ∧ v = 0x00#8) →
    ∃ t, exec i s = .next t ∧ StoresByte (m.address s) v s t ∧ RegsKept s t ∧ t.p = s.p
      ∧ SequentialHandler i s t

/-- Rules R178 to R181: PHA, PHP, PHX and PHY complete with the register pushed; PHP pushes P with B and U set and leaves P
itself. -/
def Obligations.PushResults : Prop :=
  ∀ (s : State) (i : Instr) (v : Byte),
    (i = .pha ∧ v = s.a) ∨ (i = .php ∧ v = s.p ||| 0x30#8) ∨ (i = .phx ∧ v = s.x)
      ∨ (i = .phy ∧ v = s.y) →
    ∃ t, exec i s = .next t ∧ StoresByte (BitVec.ofNat 16 (0x100 + s.sp.toNat)) v s t
      ∧ t.sp = s.sp - 1 ∧ t.a = s.a ∧ t.x = s.x ∧ t.y = s.y ∧ t.p = s.p ∧ SequentialHandler i s t

/-- Rules R182 to R185: PLA, PLX and PLY complete with the pulled byte in the register and N and Z from it; PLP with all
eight bits of P from it. -/
def Obligations.PullResults : Prop :=
  ∀ s : State,
    let v := s.mem.read (BitVec.ofNat 16 (0x100 + (s.sp.toNat + 1) % 256))
    (∃ t, exec .pla s = .next t ∧ t.a = v ∧ t.x = s.x ∧ t.y = s.y ∧ t.sp = s.sp + 1
      ∧ NzFrom v t ∧ FlagsKept [.N, .Z] s t ∧ MemoryKept s t ∧ SequentialHandler .pla s t)
    ∧ (∃ t, exec .plx s = .next t ∧ t.x = v ∧ t.a = s.a ∧ t.y = s.y ∧ t.sp = s.sp + 1
      ∧ NzFrom v t ∧ FlagsKept [.N, .Z] s t ∧ MemoryKept s t ∧ SequentialHandler .plx s t)
    ∧ (∃ t, exec .ply s = .next t ∧ t.y = v ∧ t.a = s.a ∧ t.x = s.x ∧ t.sp = s.sp + 1
      ∧ NzFrom v t ∧ FlagsKept [.N, .Z] s t ∧ MemoryKept s t ∧ SequentialHandler .ply s t)
    ∧ (∃ t, exec .plp s = .next t ∧ t.p = v ∧ t.a = s.a ∧ t.x = s.x ∧ t.y = s.y ∧ t.sp = s.sp + 1
      ∧ MemoryKept s t ∧ SequentialHandler .plp s t)

/-- Rules R186 to R191: the transfers complete; all but TXS set N and Z from the value moved. -/
def Obligations.TransferResults : Prop :=
  ∀ s : State,
    (∃ t, exec .tax s = .next t ∧ t.x = s.a ∧ t.a = s.a ∧ t.y = s.y ∧ t.sp = s.sp
      ∧ NzFrom s.a t ∧ FlagsKept [.N, .Z] s t ∧ MemoryKept s t ∧ SequentialHandler .tax s t)
    ∧ (∃ t, exec .tay s = .next t ∧ t.y = s.a ∧ t.a = s.a ∧ t.x = s.x ∧ t.sp = s.sp
      ∧ NzFrom s.a t ∧ FlagsKept [.N, .Z] s t ∧ MemoryKept s t ∧ SequentialHandler .tay s t)
    ∧ (∃ t, exec .tsx s = .next t ∧ t.x = s.sp ∧ t.a = s.a ∧ t.y = s.y ∧ t.sp = s.sp
      ∧ NzFrom s.sp t ∧ FlagsKept [.N, .Z] s t ∧ MemoryKept s t ∧ SequentialHandler .tsx s t)
    ∧ (∃ t, exec .txa s = .next t ∧ t.a = s.x ∧ t.x = s.x ∧ t.y = s.y ∧ t.sp = s.sp
      ∧ NzFrom s.x t ∧ FlagsKept [.N, .Z] s t ∧ MemoryKept s t ∧ SequentialHandler .txa s t)
    ∧ (∃ t, exec .tya s = .next t ∧ t.a = s.y ∧ t.x = s.x ∧ t.y = s.y ∧ t.sp = s.sp
      ∧ NzFrom s.y t ∧ FlagsKept [.N, .Z] s t ∧ MemoryKept s t ∧ SequentialHandler .tya s t)
    ∧ (∃ t, exec .txs s = .next t ∧ t.sp = s.x ∧ t.a = s.a ∧ t.x = s.x ∧ t.y = s.y ∧ t.p = s.p
      ∧ MemoryKept s t ∧ SequentialHandler .txs s t)

/-! ### Logical and bit operations -/

/-- Rules R201 to R203: AND, EOR and ORA complete with the result in A, bit by bit, and N and Z from it. -/
def Obligations.LogicalResults : Prop :=
  ∀ (src : Source) (s : State) (i : Instr) (f : Bool → Bool → Bool),
    (i = .and src ∧ f = and) ∨ (i = .eor src ∧ f = xor) ∨ (i = .ora src ∧ f = or) →
    ∃ t, exec i s = .next t
      ∧ (∀ k, k < 8 → t.a.getLsbD k = f (s.a.getLsbD k) ((src.value s).getLsbD k))
      ∧ t.x = s.x ∧ t.y = s.y ∧ t.sp = s.sp ∧ NzFrom t.a t ∧ FlagsKept [.N, .Z] s t
      ∧ MemoryKept s t ∧ SequentialHandler i s t

/-- Rule R204: BIT completes with Z from A and the operand; N and V are bits 7 and 6 of a memory operand and stay for an
immediate; A stays. -/
def Obligations.BitTest : Prop :=
  ∀ (s : State) (b : Byte) (m : MemMode),
    (∃ t, exec (.bit (.imm b)) s = .next t ∧ t.flag .Z = decide (s.a &&& b = 0x00#8)
      ∧ FlagsKept [.Z] s t ∧ RegsKept s t ∧ MemoryKept s t ∧ SequentialHandler (.bit (.imm b)) s t)
    ∧ (∃ t, exec (.bit (.mem m)) s = .next t
      ∧ t.flag .Z = decide (s.a &&& s.mem.read (m.address s) = 0x00#8)
      ∧ t.flag .N = (s.mem.read (m.address s)).getLsbD 7
      ∧ t.flag .V = (s.mem.read (m.address s)).getLsbD 6
      ∧ FlagsKept [.Z, .N, .V] s t ∧ RegsKept s t ∧ MemoryKept s t
      ∧ SequentialHandler (.bit (.mem m)) s t)

/-- Rules R205 and R206: TSB and TRB complete with A's bits set or reset in the byte at the effective address and Z from the
byte before the write; A stays. -/
def Obligations.TestAndSetReset : Prop :=
  ∀ (m : MemMode) (s : State) (i : Instr) (f : Bool → Bool → Bool),
    (i = .tsb m ∧ f = fun a v => v || a) ∨ (i = .trb m ∧ f = fun a v => v && !a) →
    ∃ t v, exec i s = .next t ∧ StoresByte (m.address s) v s t
      ∧ (∀ k, k < 8 → v.getLsbD k
          = f (s.a.getLsbD k) ((s.mem.read (m.address s)).getLsbD k))
      ∧ t.flag .Z = decide (s.a &&& s.mem.read (m.address s) = 0x00#8)
      ∧ FlagsKept [.Z] s t ∧ RegsKept s t ∧ SequentialHandler i s t

/-- Rules R207 and R208: RMBn and SMBn complete with bit n of the zero-page byte reset or set, its other bits as they were,
and no register or flag changed. -/
def Obligations.MemoryBitResetSet : Prop :=
  ∀ (s : State) (z : Byte) (i : Instr) (n : Nat) (b : Bool),
    (i, n, b) ∈ memoryBitWrites z →
    ∃ t v, exec i s = .next t ∧ StoresByte (BitVec.ofNat 16 z.toNat) v s t
      ∧ (∀ k, k < 8 → v.getLsbD k
          = if k = n then b else (s.mem.read (BitVec.ofNat 16 z.toNat)).getLsbD k)
      ∧ RegsKept s t ∧ t.p = s.p ∧ SequentialHandler i s t

/-! ### Branches and jumps -/

/-- Rules R209 to R218: the branches complete; they set the displacement to the signed operand where the condition on P
holds and leave it where not, and change nothing else but the cursor. -/
def Obligations.BranchResults : Prop :=
  ∀ (s : State) (rel : Byte) (i : Instr) (cond : Bool),
    (i, cond) ∈ branchConditions s rel →
    ∃ t, exec i s = .next t
      ∧ t.branchDisplacement = (if cond = true then
          (if rel.toNat < 128 then (rel.toNat : Int) else (rel.toNat : Int) - 256)
          else s.branchDisplacement)
      ∧ RegsKept s t ∧ t.p = s.p ∧ MemoryKept s t ∧ RelativeHandler i s t

/-- Rules R219 and R220: BBRn and BBSn complete; the condition is bit n of the zero-page byte being clear or set. -/
def Obligations.BitBranchResults : Prop :=
  ∀ (s : State) (z rel : Byte) (i : Instr) (n : Nat) (want : Bool),
    (i, n, want) ∈ bitBranches z rel →
    ∃ t, exec i s = .next t
      ∧ t.branchDisplacement
          = (if (s.mem.read (BitVec.ofNat 16 z.toNat)).getLsbD n = want then
              (if rel.toNat < 128 then (rel.toNat : Int) else (rel.toNat : Int) - 256)
            else s.branchDisplacement)
      ∧ RegsKept s t ∧ t.p = s.p ∧ MemoryKept s t ∧ RelativeHandler i s t

/-- Rule R221: JMP completes with its target in pc, in all three forms, and changes nothing else but the cursor. -/
def Obligations.JmpResult : Prop :=
  ∀ (tg : JumpTarget) (s : State),
    ∃ t, exec (.jmp tg) s = .next t ∧ t.pc = tg.address s ∧ RegsKept s t ∧ t.p = s.p
      ∧ MemoryKept s t ∧ AbsoluteHandler (.jmp tg) s t

/-- Rule R222: JSR completes with the address of its last byte pushed, high byte first, and the target in pc. -/
def Obligations.JsrResult : Prop :=
  ∀ (target : Addr) (s : State),
    ∃ t, exec (.jsr target) s = .next t ∧ t.pc = target
      ∧ PushesFrame [hiByte (s.pcAtFetch + 2), loByte (s.pcAtFetch + 2)] s t
      ∧ t.a = s.a ∧ t.x = s.x ∧ t.y = s.y ∧ t.p = s.p ∧ AbsoluteHandler (.jsr target) s t

/-- Rule R223: RTS completes with one more than the pulled address in pc; nothing is stored. -/
def Obligations.RtsResult : Prop :=
  ∀ s : State,
    ∃ t, exec .rts s = .next t ∧ t.pc = stackWord s 0 + 1 ∧ t.sp = s.sp + 2
      ∧ t.a = s.a ∧ t.x = s.x ∧ t.y = s.y ∧ t.p = s.p ∧ MemoryKept s t ∧ AbsoluteHandler .rts s t

/-- Rules R222 and R223 together: RTS right after JSR leaves the address of the instruction after the JSR in pc and SP as it
was. -/
def Obligations.RtsReturnsFromJsr : Prop :=
  ∀ (target : Addr) (s : State), s.mem.wf →
    ∃ t u, exec (.jsr target) s = .next t ∧ exec .rts t = .next u
      ∧ u.pc = s.pcAtFetch + 3 ∧ u.sp = s.sp

/-! ### Flags, increments, decrements and interrupt control -/

/-- Rules R230 to R237: each flag instruction completes and writes exactly one bit of P. -/
def Obligations.FlagInstructions : Prop :=
  ∀ (s : State) (i : Instr) (f : Flag) (b : Bool),
    (i, f, b) ∈ flagWrites →
    ∃ t, exec i s = .next t ∧ t.flag f = b ∧ FlagsKept [f] s t ∧ RegsKept s t
      ∧ MemoryKept s t ∧ SequentialHandler i s t

/-- Rules R238 and R239: INC and DEC complete, in A or in memory, with one more or less mod 256 and N and Z from the result; C
and V stay. -/
def Obligations.IncDecResults : Prop :=
  ∀ (tg : RmwTarget) (s : State) (i : Instr) (r : Nat),
    (i = .inc tg ∧ r = ((tg.value s).toNat + 1) % 256)
      ∨ (i = .dec tg ∧ r = ((tg.value s).toNat + 255) % 256) →
    ∃ t v, exec i s = .next t ∧ v.toNat = r ∧ RmwResult tg v s t ∧ NzFrom v t
      ∧ FlagsKept [.N, .Z] s t ∧ t.x = s.x ∧ t.y = s.y ∧ t.sp = s.sp ∧ SequentialHandler i s t

/-- Rules R240 to R243: INX, INY, DEX and DEY complete with the index one more or less mod 256 and N and Z from it. -/
def Obligations.IndexIncDec : Prop :=
  ∀ s : State,
    (∃ t, exec .inx s = .next t ∧ t.x.toNat = (s.x.toNat + 1) % 256 ∧ t.a = s.a ∧ t.y = s.y
      ∧ t.sp = s.sp ∧ NzFrom t.x t ∧ FlagsKept [.N, .Z] s t ∧ MemoryKept s t
      ∧ SequentialHandler .inx s t)
    ∧ (∃ t, exec .iny s = .next t ∧ t.y.toNat = (s.y.toNat + 1) % 256 ∧ t.a = s.a ∧ t.x = s.x
      ∧ t.sp = s.sp ∧ NzFrom t.y t ∧ FlagsKept [.N, .Z] s t ∧ MemoryKept s t
      ∧ SequentialHandler .iny s t)
    ∧ (∃ t, exec .dex s = .next t ∧ t.x.toNat = (s.x.toNat + 255) % 256 ∧ t.a = s.a ∧ t.y = s.y
      ∧ t.sp = s.sp ∧ NzFrom t.x t ∧ FlagsKept [.N, .Z] s t ∧ MemoryKept s t
      ∧ SequentialHandler .dex s t)
    ∧ (∃ t, exec .dey s = .next t ∧ t.y.toNat = (s.y.toNat + 255) % 256 ∧ t.a = s.a ∧ t.x = s.x
      ∧ t.sp = s.sp ∧ NzFrom t.y t ∧ FlagsKept [.N, .Z] s t ∧ MemoryKept s t
      ∧ SequentialHandler .dey s t)

/-- Rule R244: BRK completes with pc_at_fetch + 2 and P, B and U set in the pushed copy, on the stack; I set, D clear, the
other flags as they were, and pc at the address the vector holds. -/
def Obligations.BrkResult : Prop :=
  ∀ (sig : Byte) (s : State),
    ∃ t, exec (.brk sig) s = .next t
      ∧ PushesFrame [hiByte (s.pcAtFetch + 2), loByte (s.pcAtFetch + 2), s.p ||| 0x30#8] s t
      ∧ t.flag .I = true ∧ t.flag .D = false ∧ FlagsKept [.I, .D] s t ∧ t.pc = vectorTarget s
      ∧ t.a = s.a ∧ t.x = s.x ∧ t.y = s.y ∧ AbsoluteHandler (.brk sig) s t

/-- Rule R245: RTI completes with all of P pulled, then pc, low byte first, nothing added; nothing is stored. -/
def Obligations.RtiResult : Prop :=
  ∀ s : State,
    ∃ t, exec .rti s = .next t
      ∧ t.p = s.mem.read (BitVec.ofNat 16 (0x100 + (s.sp.toNat + 1) % 256))
      ∧ t.pc = stackWord s 1 ∧ t.sp = s.sp + 3
      ∧ t.a = s.a ∧ t.x = s.x ∧ t.y = s.y ∧ MemoryKept s t ∧ AbsoluteHandler .rti s t

/-- Rules R246 to R249: WAI completes with WAIT set and nothing else; STP with `halt` and nothing else; NOP and the unmapped
bytes with nothing at all. -/
def Obligations.WaiStpNopUnmapped : Prop :=
  ∀ (s : State) (op : Byte),
    exec .wai s = .next { s with wait := true }
      ∧ exec .stp s = .next { s with phase := .haltFlush }
      ∧ exec .nop s = .next s ∧ exec (.unmapped op) s = .next s

/-- Rule R297: CLI with a request pending is followed by the injection at its own boundary; the pushed address is the
instruction after CLI and the pushed status has I clear. -/
def Obligations.CliInjectsAtItsOwnBoundary : Prop :=
  ∀ s : State, s.phase = .fetch → s.mem.read s.pc = 0x58#8 → s.interruptPending = true →
    s.mem.wf → QuietNext s →
    ∃ t, step s = .next t ∧ t.interruptPending = false ∧ t.flag .I = true
      ∧ t.sp = s.sp - 3 ∧ t.pc = vectorTarget s
      ∧ t.mem.read (State.stackAddr s.sp) = hiByte (s.pc + 1)
      ∧ t.mem.read (State.stackAddr (s.sp - 1)) = loByte (s.pc + 1)
      ∧ (t.mem.read (State.stackAddr (s.sp - 2))).getLsbD 2 = false

/-- Rule R81: the operand byte of a branch and its target determine each other, at every pc and for both branch lengths, and
the target is the pc that RESOLVE_PC leaves for that displacement. That the reach is taken mod 2^16 is the model's
choice (log 26). -/
def Obligations.BranchOperandAndTarget : Prop :=
  ∀ (pc : Addr) (length : Nat) (rel : Byte) (target : Addr),
    (Assembly.branchOperand pc length target = some rel ↔ Assembly.branchTarget pc length rel = target)
      ∧ ∀ s : State, s.pc = pc → s.pcAtFetch = pc → s.decodeOffset = length →
          s.branchDisplacement = int8 rel → s.resolvePc.pc = Assembly.branchTarget pc length rel
end

