-- ==== Sys2Proof/Laws/State.lean ====
section
/-! SUPPORT. One lemma per field per update, so that no proof unfolds a record update. -/

namespace Sys2Proof.Machine.State

@[simp] theorem setA_a (v : Byte) (s : State) : (s.setA v).a = v := rfl
@[simp] theorem setA_x (v : Byte) (s : State) : (s.setA v).x = s.x := rfl
@[simp] theorem setA_y (v : Byte) (s : State) : (s.setA v).y = s.y := rfl
@[simp] theorem setA_sp (v : Byte) (s : State) : (s.setA v).sp = s.sp := rfl
@[simp] theorem setA_p (v : Byte) (s : State) : (s.setA v).p = s.p := rfl
@[simp] theorem setA_pc (v : Byte) (s : State) : (s.setA v).pc = s.pc := rfl
@[simp] theorem setA_mem (v : Byte) (s : State) : (s.setA v).mem = s.mem := rfl
@[simp] theorem setA_pcAtFetch (v : Byte) (s : State) : (s.setA v).pcAtFetch = s.pcAtFetch := rfl
@[simp] theorem setA_currentOpcode (v : Byte) (s : State) : (s.setA v).currentOpcode = s.currentOpcode := rfl
@[simp] theorem setA_decodeOffset (v : Byte) (s : State) : (s.setA v).decodeOffset = s.decodeOffset := rfl
@[simp] theorem setA_branchDisplacement (v : Byte) (s : State) : (s.setA v).branchDisplacement = s.branchDisplacement := rfl
@[simp] theorem setA_dirty (v : Byte) (s : State) : (s.setA v).dirty = s.dirty := rfl
@[simp] theorem setA_wait (v : Byte) (s : State) : (s.setA v).wait = s.wait := rfl
@[simp] theorem setA_interruptPending (v : Byte) (s : State) : (s.setA v).interruptPending = s.interruptPending := rfl
@[simp] theorem setA_phase (v : Byte) (s : State) : (s.setA v).phase = s.phase := rfl
@[simp] theorem setA_icState (v : Byte) (s : State) : (s.setA v).icState = s.icState := rfl
@[simp] theorem setA_device (v : Byte) (s : State) : (s.setA v).device = s.device := rfl
@[simp] theorem setA_deviceCalls (v : Byte) (s : State) : (s.setA v).deviceCalls = s.deviceCalls := rfl
@[simp] theorem setA_draws (v : Byte) (s : State) : (s.setA v).draws = s.draws := rfl
@[simp] theorem setA_trace (v : Byte) (s : State) : (s.setA v).trace = s.trace := rfl

@[simp] theorem setX_a (v : Byte) (s : State) : (s.setX v).a = s.a := rfl
@[simp] theorem setX_x (v : Byte) (s : State) : (s.setX v).x = v := rfl
@[simp] theorem setX_y (v : Byte) (s : State) : (s.setX v).y = s.y := rfl
@[simp] theorem setX_sp (v : Byte) (s : State) : (s.setX v).sp = s.sp := rfl
@[simp] theorem setX_p (v : Byte) (s : State) : (s.setX v).p = s.p := rfl
@[simp] theorem setX_pc (v : Byte) (s : State) : (s.setX v).pc = s.pc := rfl
@[simp] theorem setX_mem (v : Byte) (s : State) : (s.setX v).mem = s.mem := rfl
@[simp] theorem setX_pcAtFetch (v : Byte) (s : State) : (s.setX v).pcAtFetch = s.pcAtFetch := rfl
@[simp] theorem setX_currentOpcode (v : Byte) (s : State) : (s.setX v).currentOpcode = s.currentOpcode := rfl
@[simp] theorem setX_decodeOffset (v : Byte) (s : State) : (s.setX v).decodeOffset = s.decodeOffset := rfl
@[simp] theorem setX_branchDisplacement (v : Byte) (s : State) : (s.setX v).branchDisplacement = s.branchDisplacement := rfl
@[simp] theorem setX_dirty (v : Byte) (s : State) : (s.setX v).dirty = s.dirty := rfl
@[simp] theorem setX_wait (v : Byte) (s : State) : (s.setX v).wait = s.wait := rfl
@[simp] theorem setX_interruptPending (v : Byte) (s : State) : (s.setX v).interruptPending = s.interruptPending := rfl
@[simp] theorem setX_phase (v : Byte) (s : State) : (s.setX v).phase = s.phase := rfl
@[simp] theorem setX_icState (v : Byte) (s : State) : (s.setX v).icState = s.icState := rfl
@[simp] theorem setX_device (v : Byte) (s : State) : (s.setX v).device = s.device := rfl
@[simp] theorem setX_deviceCalls (v : Byte) (s : State) : (s.setX v).deviceCalls = s.deviceCalls := rfl
@[simp] theorem setX_draws (v : Byte) (s : State) : (s.setX v).draws = s.draws := rfl
@[simp] theorem setX_trace (v : Byte) (s : State) : (s.setX v).trace = s.trace := rfl

@[simp] theorem setY_a (v : Byte) (s : State) : (s.setY v).a = s.a := rfl
@[simp] theorem setY_x (v : Byte) (s : State) : (s.setY v).x = s.x := rfl
@[simp] theorem setY_y (v : Byte) (s : State) : (s.setY v).y = v := rfl
@[simp] theorem setY_sp (v : Byte) (s : State) : (s.setY v).sp = s.sp := rfl
@[simp] theorem setY_p (v : Byte) (s : State) : (s.setY v).p = s.p := rfl
@[simp] theorem setY_pc (v : Byte) (s : State) : (s.setY v).pc = s.pc := rfl
@[simp] theorem setY_mem (v : Byte) (s : State) : (s.setY v).mem = s.mem := rfl
@[simp] theorem setY_pcAtFetch (v : Byte) (s : State) : (s.setY v).pcAtFetch = s.pcAtFetch := rfl
@[simp] theorem setY_currentOpcode (v : Byte) (s : State) : (s.setY v).currentOpcode = s.currentOpcode := rfl
@[simp] theorem setY_decodeOffset (v : Byte) (s : State) : (s.setY v).decodeOffset = s.decodeOffset := rfl
@[simp] theorem setY_branchDisplacement (v : Byte) (s : State) : (s.setY v).branchDisplacement = s.branchDisplacement := rfl
@[simp] theorem setY_dirty (v : Byte) (s : State) : (s.setY v).dirty = s.dirty := rfl
@[simp] theorem setY_wait (v : Byte) (s : State) : (s.setY v).wait = s.wait := rfl
@[simp] theorem setY_interruptPending (v : Byte) (s : State) : (s.setY v).interruptPending = s.interruptPending := rfl
@[simp] theorem setY_phase (v : Byte) (s : State) : (s.setY v).phase = s.phase := rfl
@[simp] theorem setY_icState (v : Byte) (s : State) : (s.setY v).icState = s.icState := rfl
@[simp] theorem setY_device (v : Byte) (s : State) : (s.setY v).device = s.device := rfl
@[simp] theorem setY_deviceCalls (v : Byte) (s : State) : (s.setY v).deviceCalls = s.deviceCalls := rfl
@[simp] theorem setY_draws (v : Byte) (s : State) : (s.setY v).draws = s.draws := rfl
@[simp] theorem setY_trace (v : Byte) (s : State) : (s.setY v).trace = s.trace := rfl

@[simp] theorem setSp_a (v : Byte) (s : State) : (s.setSp v).a = s.a := rfl
@[simp] theorem setSp_x (v : Byte) (s : State) : (s.setSp v).x = s.x := rfl
@[simp] theorem setSp_y (v : Byte) (s : State) : (s.setSp v).y = s.y := rfl
@[simp] theorem setSp_sp (v : Byte) (s : State) : (s.setSp v).sp = v := rfl
@[simp] theorem setSp_p (v : Byte) (s : State) : (s.setSp v).p = s.p := rfl
@[simp] theorem setSp_pc (v : Byte) (s : State) : (s.setSp v).pc = s.pc := rfl
@[simp] theorem setSp_mem (v : Byte) (s : State) : (s.setSp v).mem = s.mem := rfl
@[simp] theorem setSp_pcAtFetch (v : Byte) (s : State) : (s.setSp v).pcAtFetch = s.pcAtFetch := rfl
@[simp] theorem setSp_currentOpcode (v : Byte) (s : State) : (s.setSp v).currentOpcode = s.currentOpcode := rfl
@[simp] theorem setSp_decodeOffset (v : Byte) (s : State) : (s.setSp v).decodeOffset = s.decodeOffset := rfl
@[simp] theorem setSp_branchDisplacement (v : Byte) (s : State) : (s.setSp v).branchDisplacement = s.branchDisplacement := rfl
@[simp] theorem setSp_dirty (v : Byte) (s : State) : (s.setSp v).dirty = s.dirty := rfl
@[simp] theorem setSp_wait (v : Byte) (s : State) : (s.setSp v).wait = s.wait := rfl
@[simp] theorem setSp_interruptPending (v : Byte) (s : State) : (s.setSp v).interruptPending = s.interruptPending := rfl
@[simp] theorem setSp_phase (v : Byte) (s : State) : (s.setSp v).phase = s.phase := rfl
@[simp] theorem setSp_icState (v : Byte) (s : State) : (s.setSp v).icState = s.icState := rfl
@[simp] theorem setSp_device (v : Byte) (s : State) : (s.setSp v).device = s.device := rfl
@[simp] theorem setSp_deviceCalls (v : Byte) (s : State) : (s.setSp v).deviceCalls = s.deviceCalls := rfl
@[simp] theorem setSp_draws (v : Byte) (s : State) : (s.setSp v).draws = s.draws := rfl
@[simp] theorem setSp_trace (v : Byte) (s : State) : (s.setSp v).trace = s.trace := rfl

@[simp] theorem setP_a (v : Byte) (s : State) : (s.setP v).a = s.a := rfl
@[simp] theorem setP_x (v : Byte) (s : State) : (s.setP v).x = s.x := rfl
@[simp] theorem setP_y (v : Byte) (s : State) : (s.setP v).y = s.y := rfl
@[simp] theorem setP_sp (v : Byte) (s : State) : (s.setP v).sp = s.sp := rfl
@[simp] theorem setP_p (v : Byte) (s : State) : (s.setP v).p = v := rfl
@[simp] theorem setP_pc (v : Byte) (s : State) : (s.setP v).pc = s.pc := rfl
@[simp] theorem setP_mem (v : Byte) (s : State) : (s.setP v).mem = s.mem := rfl
@[simp] theorem setP_pcAtFetch (v : Byte) (s : State) : (s.setP v).pcAtFetch = s.pcAtFetch := rfl
@[simp] theorem setP_currentOpcode (v : Byte) (s : State) : (s.setP v).currentOpcode = s.currentOpcode := rfl
@[simp] theorem setP_decodeOffset (v : Byte) (s : State) : (s.setP v).decodeOffset = s.decodeOffset := rfl
@[simp] theorem setP_branchDisplacement (v : Byte) (s : State) : (s.setP v).branchDisplacement = s.branchDisplacement := rfl
@[simp] theorem setP_dirty (v : Byte) (s : State) : (s.setP v).dirty = s.dirty := rfl
@[simp] theorem setP_wait (v : Byte) (s : State) : (s.setP v).wait = s.wait := rfl
@[simp] theorem setP_interruptPending (v : Byte) (s : State) : (s.setP v).interruptPending = s.interruptPending := rfl
@[simp] theorem setP_phase (v : Byte) (s : State) : (s.setP v).phase = s.phase := rfl
@[simp] theorem setP_icState (v : Byte) (s : State) : (s.setP v).icState = s.icState := rfl
@[simp] theorem setP_device (v : Byte) (s : State) : (s.setP v).device = s.device := rfl
@[simp] theorem setP_deviceCalls (v : Byte) (s : State) : (s.setP v).deviceCalls = s.deviceCalls := rfl
@[simp] theorem setP_draws (v : Byte) (s : State) : (s.setP v).draws = s.draws := rfl
@[simp] theorem setP_trace (v : Byte) (s : State) : (s.setP v).trace = s.trace := rfl

@[simp] theorem setPc_a (v : Addr) (s : State) : (s.setPc v).a = s.a := rfl
@[simp] theorem setPc_x (v : Addr) (s : State) : (s.setPc v).x = s.x := rfl
@[simp] theorem setPc_y (v : Addr) (s : State) : (s.setPc v).y = s.y := rfl
@[simp] theorem setPc_sp (v : Addr) (s : State) : (s.setPc v).sp = s.sp := rfl
@[simp] theorem setPc_p (v : Addr) (s : State) : (s.setPc v).p = s.p := rfl
@[simp] theorem setPc_pc (v : Addr) (s : State) : (s.setPc v).pc = v := rfl
@[simp] theorem setPc_mem (v : Addr) (s : State) : (s.setPc v).mem = s.mem := rfl
@[simp] theorem setPc_pcAtFetch (v : Addr) (s : State) : (s.setPc v).pcAtFetch = s.pcAtFetch := rfl
@[simp] theorem setPc_currentOpcode (v : Addr) (s : State) : (s.setPc v).currentOpcode = s.currentOpcode := rfl
@[simp] theorem setPc_decodeOffset (v : Addr) (s : State) : (s.setPc v).decodeOffset = s.decodeOffset := rfl
@[simp] theorem setPc_branchDisplacement (v : Addr) (s : State) : (s.setPc v).branchDisplacement = s.branchDisplacement := rfl
@[simp] theorem setPc_dirty (v : Addr) (s : State) : (s.setPc v).dirty = s.dirty := rfl
@[simp] theorem setPc_wait (v : Addr) (s : State) : (s.setPc v).wait = s.wait := rfl
@[simp] theorem setPc_interruptPending (v : Addr) (s : State) : (s.setPc v).interruptPending = s.interruptPending := rfl
@[simp] theorem setPc_phase (v : Addr) (s : State) : (s.setPc v).phase = s.phase := rfl
@[simp] theorem setPc_icState (v : Addr) (s : State) : (s.setPc v).icState = s.icState := rfl
@[simp] theorem setPc_device (v : Addr) (s : State) : (s.setPc v).device = s.device := rfl
@[simp] theorem setPc_deviceCalls (v : Addr) (s : State) : (s.setPc v).deviceCalls = s.deviceCalls := rfl
@[simp] theorem setPc_draws (v : Addr) (s : State) : (s.setPc v).draws = s.draws := rfl
@[simp] theorem setPc_trace (v : Addr) (s : State) : (s.setPc v).trace = s.trace := rfl

@[simp] theorem setFlag_a (f : Flag) (b : Bool) (s : State) : (s.setFlag f b).a = s.a := rfl
@[simp] theorem setFlag_x (f : Flag) (b : Bool) (s : State) : (s.setFlag f b).x = s.x := rfl
@[simp] theorem setFlag_y (f : Flag) (b : Bool) (s : State) : (s.setFlag f b).y = s.y := rfl
@[simp] theorem setFlag_sp (f : Flag) (b : Bool) (s : State) : (s.setFlag f b).sp = s.sp := rfl
@[simp] theorem setFlag_p (f : Flag) (b : Bool) (s : State) : (s.setFlag f b).p = Status.setFlag f b s.p := rfl
@[simp] theorem setFlag_pc (f : Flag) (b : Bool) (s : State) : (s.setFlag f b).pc = s.pc := rfl
@[simp] theorem setFlag_mem (f : Flag) (b : Bool) (s : State) : (s.setFlag f b).mem = s.mem := rfl
@[simp] theorem setFlag_pcAtFetch (f : Flag) (b : Bool) (s : State) : (s.setFlag f b).pcAtFetch = s.pcAtFetch := rfl
@[simp] theorem setFlag_currentOpcode (f : Flag) (b : Bool) (s : State) : (s.setFlag f b).currentOpcode = s.currentOpcode := rfl
@[simp] theorem setFlag_decodeOffset (f : Flag) (b : Bool) (s : State) : (s.setFlag f b).decodeOffset = s.decodeOffset := rfl
@[simp] theorem setFlag_branchDisplacement (f : Flag) (b : Bool) (s : State) : (s.setFlag f b).branchDisplacement = s.branchDisplacement := rfl
@[simp] theorem setFlag_dirty (f : Flag) (b : Bool) (s : State) : (s.setFlag f b).dirty = s.dirty := rfl
@[simp] theorem setFlag_wait (f : Flag) (b : Bool) (s : State) : (s.setFlag f b).wait = s.wait := rfl
@[simp] theorem setFlag_interruptPending (f : Flag) (b : Bool) (s : State) : (s.setFlag f b).interruptPending = s.interruptPending := rfl
@[simp] theorem setFlag_phase (f : Flag) (b : Bool) (s : State) : (s.setFlag f b).phase = s.phase := rfl
@[simp] theorem setFlag_icState (f : Flag) (b : Bool) (s : State) : (s.setFlag f b).icState = s.icState := rfl
@[simp] theorem setFlag_device (f : Flag) (b : Bool) (s : State) : (s.setFlag f b).device = s.device := rfl
@[simp] theorem setFlag_deviceCalls (f : Flag) (b : Bool) (s : State) : (s.setFlag f b).deviceCalls = s.deviceCalls := rfl
@[simp] theorem setFlag_draws (f : Flag) (b : Bool) (s : State) : (s.setFlag f b).draws = s.draws := rfl
@[simp] theorem setFlag_trace (f : Flag) (b : Bool) (s : State) : (s.setFlag f b).trace = s.trace := rfl

@[simp] theorem setNZ_a (v : Byte) (s : State) : (s.setNZ v).a = s.a := rfl
@[simp] theorem setNZ_x (v : Byte) (s : State) : (s.setNZ v).x = s.x := rfl
@[simp] theorem setNZ_y (v : Byte) (s : State) : (s.setNZ v).y = s.y := rfl
@[simp] theorem setNZ_sp (v : Byte) (s : State) : (s.setNZ v).sp = s.sp := rfl
@[simp] theorem setNZ_p (v : Byte) (s : State) : (s.setNZ v).p = Status.setNZ v s.p := rfl
@[simp] theorem setNZ_pc (v : Byte) (s : State) : (s.setNZ v).pc = s.pc := rfl
@[simp] theorem setNZ_mem (v : Byte) (s : State) : (s.setNZ v).mem = s.mem := rfl
@[simp] theorem setNZ_pcAtFetch (v : Byte) (s : State) : (s.setNZ v).pcAtFetch = s.pcAtFetch := rfl
@[simp] theorem setNZ_currentOpcode (v : Byte) (s : State) : (s.setNZ v).currentOpcode = s.currentOpcode := rfl
@[simp] theorem setNZ_decodeOffset (v : Byte) (s : State) : (s.setNZ v).decodeOffset = s.decodeOffset := rfl
@[simp] theorem setNZ_branchDisplacement (v : Byte) (s : State) : (s.setNZ v).branchDisplacement = s.branchDisplacement := rfl
@[simp] theorem setNZ_dirty (v : Byte) (s : State) : (s.setNZ v).dirty = s.dirty := rfl
@[simp] theorem setNZ_wait (v : Byte) (s : State) : (s.setNZ v).wait = s.wait := rfl
@[simp] theorem setNZ_interruptPending (v : Byte) (s : State) : (s.setNZ v).interruptPending = s.interruptPending := rfl
@[simp] theorem setNZ_phase (v : Byte) (s : State) : (s.setNZ v).phase = s.phase := rfl
@[simp] theorem setNZ_icState (v : Byte) (s : State) : (s.setNZ v).icState = s.icState := rfl
@[simp] theorem setNZ_device (v : Byte) (s : State) : (s.setNZ v).device = s.device := rfl
@[simp] theorem setNZ_deviceCalls (v : Byte) (s : State) : (s.setNZ v).deviceCalls = s.deviceCalls := rfl
@[simp] theorem setNZ_draws (v : Byte) (s : State) : (s.setNZ v).draws = s.draws := rfl
@[simp] theorem setNZ_trace (v : Byte) (s : State) : (s.setNZ v).trace = s.trace := rfl

@[simp] theorem branchIf_a (c : Bool) (rel : Byte) (s : State) : (s.branchIf c rel).a = s.a := rfl
@[simp] theorem branchIf_x (c : Bool) (rel : Byte) (s : State) : (s.branchIf c rel).x = s.x := rfl
@[simp] theorem branchIf_y (c : Bool) (rel : Byte) (s : State) : (s.branchIf c rel).y = s.y := rfl
@[simp] theorem branchIf_sp (c : Bool) (rel : Byte) (s : State) : (s.branchIf c rel).sp = s.sp := rfl
@[simp] theorem branchIf_p (c : Bool) (rel : Byte) (s : State) : (s.branchIf c rel).p = s.p := rfl
@[simp] theorem branchIf_pc (c : Bool) (rel : Byte) (s : State) : (s.branchIf c rel).pc = s.pc := rfl
@[simp] theorem branchIf_mem (c : Bool) (rel : Byte) (s : State) : (s.branchIf c rel).mem = s.mem := rfl
@[simp] theorem branchIf_pcAtFetch (c : Bool) (rel : Byte) (s : State) : (s.branchIf c rel).pcAtFetch = s.pcAtFetch := rfl
@[simp] theorem branchIf_currentOpcode (c : Bool) (rel : Byte) (s : State) : (s.branchIf c rel).currentOpcode = s.currentOpcode := rfl
@[simp] theorem branchIf_decodeOffset (c : Bool) (rel : Byte) (s : State) : (s.branchIf c rel).decodeOffset = s.decodeOffset := rfl
@[simp] theorem branchIf_branchDisplacement (c : Bool) (rel : Byte) (s : State) : (s.branchIf c rel).branchDisplacement = if c then int8 rel else s.branchDisplacement := rfl
@[simp] theorem branchIf_dirty (c : Bool) (rel : Byte) (s : State) : (s.branchIf c rel).dirty = s.dirty := rfl
@[simp] theorem branchIf_wait (c : Bool) (rel : Byte) (s : State) : (s.branchIf c rel).wait = s.wait := rfl
@[simp] theorem branchIf_interruptPending (c : Bool) (rel : Byte) (s : State) : (s.branchIf c rel).interruptPending = s.interruptPending := rfl
@[simp] theorem branchIf_phase (c : Bool) (rel : Byte) (s : State) : (s.branchIf c rel).phase = s.phase := rfl
@[simp] theorem branchIf_icState (c : Bool) (rel : Byte) (s : State) : (s.branchIf c rel).icState = s.icState := rfl
@[simp] theorem branchIf_device (c : Bool) (rel : Byte) (s : State) : (s.branchIf c rel).device = s.device := rfl
@[simp] theorem branchIf_deviceCalls (c : Bool) (rel : Byte) (s : State) : (s.branchIf c rel).deviceCalls = s.deviceCalls := rfl
@[simp] theorem branchIf_draws (c : Bool) (rel : Byte) (s : State) : (s.branchIf c rel).draws = s.draws := rfl
@[simp] theorem branchIf_trace (c : Bool) (rel : Byte) (s : State) : (s.branchIf c rel).trace = s.trace := rfl

@[simp] theorem emit_a (ad : Addr) (d : Direction) (v : Byte) (s : State) : (s.emit ad d v).a = s.a := rfl
@[simp] theorem emit_x (ad : Addr) (d : Direction) (v : Byte) (s : State) : (s.emit ad d v).x = s.x := rfl
@[simp] theorem emit_y (ad : Addr) (d : Direction) (v : Byte) (s : State) : (s.emit ad d v).y = s.y := rfl
@[simp] theorem emit_sp (ad : Addr) (d : Direction) (v : Byte) (s : State) : (s.emit ad d v).sp = s.sp := rfl
@[simp] theorem emit_p (ad : Addr) (d : Direction) (v : Byte) (s : State) : (s.emit ad d v).p = s.p := rfl
@[simp] theorem emit_pc (ad : Addr) (d : Direction) (v : Byte) (s : State) : (s.emit ad d v).pc = s.pc := rfl
@[simp] theorem emit_mem (ad : Addr) (d : Direction) (v : Byte) (s : State) : (s.emit ad d v).mem = s.mem := rfl
@[simp] theorem emit_pcAtFetch (ad : Addr) (d : Direction) (v : Byte) (s : State) : (s.emit ad d v).pcAtFetch = s.pcAtFetch := rfl
@[simp] theorem emit_currentOpcode (ad : Addr) (d : Direction) (v : Byte) (s : State) : (s.emit ad d v).currentOpcode = s.currentOpcode := rfl
@[simp] theorem emit_decodeOffset (ad : Addr) (d : Direction) (v : Byte) (s : State) : (s.emit ad d v).decodeOffset = s.decodeOffset := rfl
@[simp] theorem emit_branchDisplacement (ad : Addr) (d : Direction) (v : Byte) (s : State) : (s.emit ad d v).branchDisplacement = s.branchDisplacement := rfl
@[simp] theorem emit_dirty (ad : Addr) (d : Direction) (v : Byte) (s : State) : (s.emit ad d v).dirty = s.dirty := rfl
@[simp] theorem emit_wait (ad : Addr) (d : Direction) (v : Byte) (s : State) : (s.emit ad d v).wait = s.wait := rfl
@[simp] theorem emit_interruptPending (ad : Addr) (d : Direction) (v : Byte) (s : State) : (s.emit ad d v).interruptPending = s.interruptPending := rfl
@[simp] theorem emit_phase (ad : Addr) (d : Direction) (v : Byte) (s : State) : (s.emit ad d v).phase = s.phase := rfl
@[simp] theorem emit_icState (ad : Addr) (d : Direction) (v : Byte) (s : State) : (s.emit ad d v).icState = s.icState := rfl
@[simp] theorem emit_device (ad : Addr) (d : Direction) (v : Byte) (s : State) : (s.emit ad d v).device = s.device := rfl
@[simp] theorem emit_deviceCalls (ad : Addr) (d : Direction) (v : Byte) (s : State) : (s.emit ad d v).deviceCalls = s.deviceCalls := rfl
@[simp] theorem emit_draws (ad : Addr) (d : Direction) (v : Byte) (s : State) : (s.emit ad d v).draws = s.draws := rfl
@[simp] theorem emit_trace (ad : Addr) (d : Direction) (v : Byte) (s : State) : (s.emit ad d v).trace = ⟨ad, d, v⟩ :: s.trace := rfl

@[simp] theorem consume_a (b : Byte) (s : State) : (s.consume b).a = s.a := rfl
@[simp] theorem consume_x (b : Byte) (s : State) : (s.consume b).x = s.x := rfl
@[simp] theorem consume_y (b : Byte) (s : State) : (s.consume b).y = s.y := rfl
@[simp] theorem consume_sp (b : Byte) (s : State) : (s.consume b).sp = s.sp := rfl
@[simp] theorem consume_p (b : Byte) (s : State) : (s.consume b).p = s.p := rfl
@[simp] theorem consume_pc (b : Byte) (s : State) : (s.consume b).pc = s.pc := rfl
@[simp] theorem consume_mem (b : Byte) (s : State) : (s.consume b).mem = s.mem := rfl
@[simp] theorem consume_pcAtFetch (b : Byte) (s : State) : (s.consume b).pcAtFetch = s.pcAtFetch := rfl
@[simp] theorem consume_currentOpcode (b : Byte) (s : State) : (s.consume b).currentOpcode = s.currentOpcode := rfl
@[simp] theorem consume_decodeOffset (b : Byte) (s : State) : (s.consume b).decodeOffset = s.decodeOffset + 1 := rfl
@[simp] theorem consume_branchDisplacement (b : Byte) (s : State) : (s.consume b).branchDisplacement = s.branchDisplacement := rfl
@[simp] theorem consume_dirty (b : Byte) (s : State) : (s.consume b).dirty = s.dirty := rfl
@[simp] theorem consume_wait (b : Byte) (s : State) : (s.consume b).wait = s.wait := rfl
@[simp] theorem consume_interruptPending (b : Byte) (s : State) : (s.consume b).interruptPending = s.interruptPending := rfl
@[simp] theorem consume_phase (b : Byte) (s : State) : (s.consume b).phase = s.phase := rfl
@[simp] theorem consume_icState (b : Byte) (s : State) : (s.consume b).icState = s.icState := rfl
@[simp] theorem consume_device (b : Byte) (s : State) : (s.consume b).device = s.device := rfl
@[simp] theorem consume_deviceCalls (b : Byte) (s : State) : (s.consume b).deviceCalls = s.deviceCalls := rfl
@[simp] theorem consume_draws (b : Byte) (s : State) : (s.consume b).draws = s.draws := rfl
@[simp] theorem consume_trace (b : Byte) (s : State) : (s.consume b).trace = ⟨s.cursorAddr, .read, b⟩ :: s.trace := rfl

@[simp] theorem busWrite_a (ad : Addr) (v : Byte) (s : State) : (s.busWrite ad v).a = s.a := rfl
@[simp] theorem busWrite_x (ad : Addr) (v : Byte) (s : State) : (s.busWrite ad v).x = s.x := rfl
@[simp] theorem busWrite_y (ad : Addr) (v : Byte) (s : State) : (s.busWrite ad v).y = s.y := rfl
@[simp] theorem busWrite_sp (ad : Addr) (v : Byte) (s : State) : (s.busWrite ad v).sp = s.sp := rfl
@[simp] theorem busWrite_p (ad : Addr) (v : Byte) (s : State) : (s.busWrite ad v).p = s.p := rfl
@[simp] theorem busWrite_pc (ad : Addr) (v : Byte) (s : State) : (s.busWrite ad v).pc = s.pc := rfl
@[simp] theorem busWrite_mem (ad : Addr) (v : Byte) (s : State) : (s.busWrite ad v).mem = s.mem.write ad v := rfl
@[simp] theorem busWrite_pcAtFetch (ad : Addr) (v : Byte) (s : State) : (s.busWrite ad v).pcAtFetch = s.pcAtFetch := rfl
@[simp] theorem busWrite_currentOpcode (ad : Addr) (v : Byte) (s : State) : (s.busWrite ad v).currentOpcode = s.currentOpcode := rfl
@[simp] theorem busWrite_decodeOffset (ad : Addr) (v : Byte) (s : State) : (s.busWrite ad v).decodeOffset = s.decodeOffset := rfl
@[simp] theorem busWrite_branchDisplacement (ad : Addr) (v : Byte) (s : State) : (s.busWrite ad v).branchDisplacement = s.branchDisplacement := rfl
@[simp] theorem busWrite_dirty (ad : Addr) (v : Byte) (s : State) : (s.busWrite ad v).dirty = true := rfl
@[simp] theorem busWrite_wait (ad : Addr) (v : Byte) (s : State) : (s.busWrite ad v).wait = s.wait := rfl
@[simp] theorem busWrite_interruptPending (ad : Addr) (v : Byte) (s : State) : (s.busWrite ad v).interruptPending = s.interruptPending := rfl
@[simp] theorem busWrite_phase (ad : Addr) (v : Byte) (s : State) : (s.busWrite ad v).phase = s.phase := rfl
@[simp] theorem busWrite_icState (ad : Addr) (v : Byte) (s : State) : (s.busWrite ad v).icState = s.icState := rfl
@[simp] theorem busWrite_device (ad : Addr) (v : Byte) (s : State) : (s.busWrite ad v).device = s.device := rfl
@[simp] theorem busWrite_deviceCalls (ad : Addr) (v : Byte) (s : State) : (s.busWrite ad v).deviceCalls = s.deviceCalls := rfl
@[simp] theorem busWrite_draws (ad : Addr) (v : Byte) (s : State) : (s.busWrite ad v).draws = s.draws := rfl
@[simp] theorem busWrite_trace (ad : Addr) (v : Byte) (s : State) : (s.busWrite ad v).trace = ⟨ad, .write, v⟩ :: s.trace := rfl

end Sys2Proof.Machine.State
end

