-- ==== Sys2Proof/Laws/Flags.lean ====
section
/-! SUPPORT. Reading flags of written status bytes, the status byte from its flags, and byte order. -/

namespace Sys2Proof.Machine

theorem Flag.bit_lt (f : Flag) : f.bit < 8 := by cases f <;> decide

theorem Flag.bit_inj {f g : Flag} (h : f.bit = g.bit) : f = g := by
  cases f <;> cases g <;> first | rfl | exact absurd h (by decide)

namespace Status

/-- One flag written: that flag reads as written, the other seven as before (rule R24). -/
@[simp] theorem flag_setFlag (f g : Flag) (b : Bool) (p : Byte) :
    flag f (setFlag g b p) = if f = g then b else flag f p := by
  have hf := f.bit_lt
  by_cases h : f = g
  · subst h
    cases b <;> simp [flag, setFlag, hf]
  · have hne : f.bit ≠ g.bit := fun he => h (Flag.bit_inj he)
    cases b <;> simp [flag, setFlag, h, hf] <;> omega

@[simp] theorem flag_setNZ (f : Flag) (v p : Byte) :
    flag f (setNZ v p) = if f = .N then v.msb else if f = .Z then v == 0 else flag f p := by
  simp [setNZ]

/-- A status byte is its eight flags (rule R24). -/
theorem ext_flags {p q : Byte} (h : ∀ f, flag f p = flag f q) : p = q := by
  apply BitVec.eq_of_getLsbD_eq
  intro i hi
  have hb : ∃ f : Flag, f.bit = i := by
    have : i = 0 ∨ i = 1 ∨ i = 2 ∨ i = 3 ∨ i = 4 ∨ i = 5 ∨ i = 6 ∨ i = 7 := by omega
    rcases this with rfl | rfl | rfl | rfl | rfl | rfl | rfl | rfl
    exacts [⟨.C, rfl⟩, ⟨.Z, rfl⟩, ⟨.I, rfl⟩, ⟨.D, rfl⟩, ⟨.B, rfl⟩, ⟨.U, rfl⟩, ⟨.V, rfl⟩, ⟨.N, rfl⟩]
  obtain ⟨f, rfl⟩ := hb
  exact h f

/-- The pushed copy of PHP and BRK: B and U set, the rest as in P (rules R179 and R244). -/
theorem flag_pushedBreakBits (f : Flag) (p : Byte) :
    flag f (p ||| pushedBreakBits) = (f = .B ∨ f = .U ∨ flag f p) := by
  cases f <;> simp [flag, pushedBreakBits, Flag.bit]

end Status

namespace State

@[simp] theorem flag_setA (f : Flag) (v : Byte) (s : State) : (s.setA v).flag f = s.flag f := rfl

@[simp] theorem flag_setX (f : Flag) (v : Byte) (s : State) : (s.setX v).flag f = s.flag f := rfl

@[simp] theorem flag_setY (f : Flag) (v : Byte) (s : State) : (s.setY v).flag f = s.flag f := rfl

@[simp] theorem flag_setSp (f : Flag) (v : Byte) (s : State) : (s.setSp v).flag f = s.flag f := rfl

@[simp] theorem flag_setPc (f : Flag) (v : Addr) (s : State) : (s.setPc v).flag f = s.flag f := rfl

@[simp] theorem flag_setP (f : Flag) (v : Byte) (s : State) :
    (s.setP v).flag f = Status.flag f v := rfl

@[simp] theorem flag_setFlag (f g : Flag) (b : Bool) (s : State) :
    (s.setFlag g b).flag f = if f = g then b else s.flag f := by
  simp [flag]

@[simp] theorem flag_setNZ (f : Flag) (v : Byte) (s : State) :
    (s.setNZ v).flag f = if f = .N then v.msb else if f = .Z then v == 0 else s.flag f := by
  simp [flag]

end State

end Sys2Proof.Machine

namespace Sys2Proof

/-- Rule R9: the value of `word`. -/
theorem word_toNat (lo hi : Byte) : (word lo hi).toNat = hi.toNat * 256 + lo.toNat := by
  simp only [word, BitVec.toNat_ofNat]
  omega

/-- Rule R9: a 16-bit value is its two bytes. -/
@[simp] theorem word_lo_hi (a : Addr) : word (loByte a) (hiByte a) = a := by
  apply BitVec.eq_of_toNat_eq
  simp only [word_toNat, loByte, hiByte, BitVec.toNat_ofNat]
  omega

@[simp] theorem loByte_word (lo hi : Byte) : loByte (word lo hi) = lo := by
  apply BitVec.eq_of_toNat_eq
  simp only [loByte, word_toNat, BitVec.toNat_ofNat]
  omega

@[simp] theorem hiByte_word (lo hi : Byte) : hiByte (word lo hi) = hi := by
  apply BitVec.eq_of_toNat_eq
  simp only [hiByte, word_toNat, BitVec.toNat_ofNat]
  omega

end Sys2Proof
end

