-- ==== Sys2Proof/Laws/Decode.lean ====
section
/-! SUPPORT. What decoding the bytes of one instruction comes to, by the number of operand bytes. -/

namespace Sys2Proof

/-! ### Lengths (rules R76, R78 and R88) -/

theorem MemMode.bytes_length (m : MemMode) : m.bytes.length + 1 = m.mode.length := by
  cases m <;> rfl

theorem Source.bytes_length (src : Source) : src.bytes.length + 1 = src.mode.length := by
  cases src with
  | imm b => rfl
  | mem m => exact m.bytes_length

theorem RmwTarget.bytes_length (t : RmwTarget) : t.bytes.length + 1 = t.mode.length := by
  cases t with
  | acc => rfl
  | mem m => exact m.bytes_length

theorem JumpTarget.bytes_length (t : JumpTarget) : t.bytes.length + 1 = t.mode.length := by
  cases t <;> rfl

/-- The encoded length is the opcode byte and the operand bytes. -/
theorem Instr.operandBytes_length (i : Instr) : i.operandBytes.length + 1 = i.length := by
  cases i <;> first
    | rfl
    | exact Source.bytes_length _
    | exact MemMode.bytes_length _
    | exact RmwTarget.bytes_length _
    | exact JumpTarget.bytes_length _

theorem Mode.length_pos (m : Mode) : 1 ≤ m.length := by cases m <;> decide

theorem Mode.length_le (m : Mode) : m.length ≤ 3 := by cases m <;> decide

/-! ### Decoding -/

/-- Decoding where the operand bytes are all there. -/
theorem decode_cons {op : Byte} {rest : List Byte} {i : Instr}
    (h : Decode.instrOf op (rest.getD 0 0) (rest.getD 1 0) = i) (hl : i.length - 1 ≤ rest.length) :
    decode (op :: rest) = .ok i (rest.drop (i.length - 1)) := by
  subst h
  simp only [decode]
  rw [if_pos hl]

/-- An instruction of one byte. -/
theorem decode_one {op : Byte} {rest : List Byte} {i : Instr}
    (h : ∀ b1 b2, Decode.instrOf op b1 b2 = i) (hl : i.length = 1) :
    decode (op :: rest) = .ok i rest := by
  rw [decode_cons (h _ _) (by omega), hl]
  rfl

/-- An instruction of two bytes. -/
theorem decode_two {op b : Byte} {rest : List Byte} {i : Instr}
    (h : ∀ b2, Decode.instrOf op b b2 = i) (hl : i.length = 2) :
    decode (op :: b :: rest) = .ok i rest := by
  rw [decode_cons (h _) (by simp [hl]), hl]
  rfl

/-- An instruction of three bytes. -/
theorem decode_three {op b c : Byte} {rest : List Byte} {i : Instr}
    (h : Decode.instrOf op b c = i) (hl : i.length = 3) :
    decode (op :: b :: c :: rest) = .ok i rest := by
  rw [decode_cons h (by simp [hl]), hl]
  rfl

/-- An instruction with a 16-bit operand, low byte first. -/
theorem decode_abs {op : Byte} {a : Addr} {rest : List Byte} (f : Addr → Instr)
    (h : ∀ b1 b2, Decode.instrOf op b1 b2 = f (word b1 b2)) (hl : (f a).length = 3) :
    decode (op :: loByte a :: hiByte a :: rest) = .ok (f a) rest :=
  decode_three (by rw [h, word_lo_hi]) hl

end Sys2Proof

/-! ### The opcode map (rules R82 to R85) -/

namespace Sys2Proof.Decode

/-- A byte value's high digit. -/
theorem highDigit_cases (op : Byte) :
    op.toNat / 16 = 0 ∨ op.toNat / 16 = 1 ∨ op.toNat / 16 = 2 ∨ op.toNat / 16 = 3
      ∨ op.toNat / 16 = 4 ∨ op.toNat / 16 = 5 ∨ op.toNat / 16 = 6 ∨ op.toNat / 16 = 7
      ∨ op.toNat / 16 = 8 ∨ op.toNat / 16 = 9 ∨ op.toNat / 16 = 10 ∨ op.toNat / 16 = 11
      ∨ op.toNat / 16 = 12 ∨ op.toNat / 16 = 13 ∨ op.toNat / 16 = 14 ∨ op.toNat / 16 = 15 := by
  have := op.isLt
  omega

/-- The opcode byte of the instruction that a byte starts is that byte. -/
theorem instrOf_opcode (op b1 b2 : Byte) : (instrOf op b1 b2).opcode = some op := by
  unfold instrOf
  split
  · unfold opcodeMap
    rcases highDigit_cases op with
      h | h | h | h | h | h | h | h | h | h | h | h | h | h | h | h
    all_goals
      simp only [h]
      first
      | unfold mapRow0 | unfold mapRow1 | unfold mapRow2 | unfold mapRow3 | unfold mapRow4
      | unfold mapRow5 | unfold mapRow6 | unfold mapRow7 | unfold mapRow8 | unfold mapRow9
      | unfold mapRowA | unfold mapRowB | unfold mapRowC | unfold mapRowD | unfold mapRowE
      | unfold mapRowF
      split <;> first
        | rfl
        | (refine congrArg some (BitVec.eq_of_toNat_eq ?_)
           simp only [BitVec.toNat_ofNat, BitVec.ofNat_eq_ofNat]
           omega)
  · rfl

/-- Its operand bytes are the bytes given, as many as its length takes. -/
theorem instrOf_operandBytes (op b1 b2 : Byte) :
    (instrOf op b1 b2).operandBytes = [b1, b2].take ((instrOf op b1 b2).length - 1) := by
  unfold instrOf
  split
  · unfold opcodeMap
    split
    all_goals
      first
      | unfold mapRow0 | unfold mapRow1 | unfold mapRow2 | unfold mapRow3 | unfold mapRow4
      | unfold mapRow5 | unfold mapRow6 | unfold mapRow7 | unfold mapRow8 | unfold mapRow9
      | unfold mapRowA | unfold mapRowB | unfold mapRowC | unfold mapRowD | unfold mapRowE
      | unfold mapRowF
      split <;> first
        | rfl
        | (simp only [Instr.operandBytes, Instr.length, Instr.mode, Source.bytes, MemMode.bytes,
            RmwTarget.bytes, JumpTarget.bytes, Source.mode, MemMode.mode, RmwTarget.mode,
            JumpTarget.mode, Mode.length, wordBytes, loByte_word, hiByte_word]
           rfl)
  · rfl

/-- The operand bytes do not bear on which instruction, in which mode, a byte starts. -/
theorem instrOf_form (op b1 b2 c1 c2 : Byte) :
    (instrOf op b1 b2).mode = (instrOf op c1 c2).mode
      ∧ (instrOf op b1 b2).legalModes = (instrOf op c1 c2).legalModes
      ∧ (instrOf op b1 b2).unmappedOk = (instrOf op c1 c2).unmappedOk := by
  unfold instrOf
  split
  · unfold opcodeMap
    rcases highDigit_cases op with
      h | h | h | h | h | h | h | h | h | h | h | h | h | h | h | h
    all_goals
      simp only [h]
      generalize op.toNat % 16 = c
      first
      | unfold mapRow0 | unfold mapRow1 | unfold mapRow2 | unfold mapRow3 | unfold mapRow4
      | unfold mapRow5 | unfold mapRow6 | unfold mapRow7 | unfold mapRow8 | unfold mapRow9
      | unfold mapRowA | unfold mapRowB | unfold mapRowC | unfold mapRowD | unfold mapRowE
      | unfold mapRowF
      split <;> simp only [Instr.mode, Source.mode, MemMode.mode, RmwTarget.mode, JumpTarget.mode,
        Instr.legalModes, Instr.unmappedOk, and_self]
  · exact ⟨rfl, rfl, rfl⟩

/-- Every byte value starts a well-formed instruction (rules R82 to R84). -/
theorem instrOf_wellFormed (op b1 b2 : Byte) : (instrOf op b1 b2).WellFormed := by
  have h := instrOf_form op b1 b2 0 0
  have h0 : ∀ op : Byte, (instrOf op 0 0).WellFormed := by decide
  rw [Instr.WellFormed, Instr.modeOk, h.1, h.2.1, h.2.2]
  exact h0 op

end Sys2Proof.Decode
end

