-- ==== Sys2Proof/Laws/Memory.lean ====
section
/-! SUPPORT. The laws of memory: a read after a write, the bytes a write leaves alone, and the canonical form
that every operation keeps. -/

namespace Sys2Proof.Machine.Memory

/-- Storing at one key leaves every other key's byte alone. -/
theorem lookup_insert_ne (m : Memory) {n k : Nat} (v : Byte) (h : k ≠ n) :
    lookup (insert m n v) k = lookup m k := by
  induction m with
  | nil => by_cases hv : v = Config.unlistedByte <;> simp [insert, lookup, hv, h]
  | cons c rest ih =>
    obtain ⟨q, w⟩ := c
    simp only [insert]
    split
    · split <;> simp [lookup, h]
    · split
      · next hq =>
        subst hq
        split <;> simp [lookup, h]
      · simp [lookup, ih]

/-- A key below every listed key is unlisted. -/
theorem lookup_of_lt {m : Memory} {n : Nat} (h : ∀ c ∈ m, n < c.1) :
    lookup m n = Config.unlistedByte := by
  induction m with
  | nil => rfl
  | cons c rest ih =>
    have hc := h c (by simp)
    simp only [lookup]
    rw [if_neg (by omega)]
    exact ih fun d hd => h d (by simp [hd])

/-- A key holds what was last stored at it. -/
theorem lookup_insert_self {m : Memory} (hm : List.Pairwise (fun c d : Host.Cell => c.1 < d.1) m)
    (n : Nat) (v : Byte) : lookup (insert m n v) n = v := by
  induction m with
  | nil => by_cases hv : v = Config.unlistedByte <;> simp [insert, lookup, hv]
  | cons c rest ih =>
    obtain ⟨q, w⟩ := c
    rw [List.pairwise_cons] at hm
    simp only [insert]
    split
    · next hlt =>
      split
      · next hv =>
        rw [hv]
        refine lookup_of_lt fun d hd => ?_
        rcases List.mem_cons.mp hd with rfl | hd
        · exact hlt
        · exact lt_trans hlt (hm.1 d hd)
      · simp [lookup]
    · split
      · next hq =>
        subst hq
        split
        · next hv =>
          rw [hv]
          exact lookup_of_lt hm.1
        · simp [lookup]
      · next hq =>
        simp only [lookup, if_neg hq]
        exact ih hm.2

/-- The canonical form, clause by clause. -/
theorem wf_iff {m : Memory} :
    m.wf = true ↔ List.Pairwise (fun c d : Host.Cell => c.1 < d.1) m
      ∧ ∀ c ∈ m, c.1 < 2 ^ 16 ∧ c.2 ≠ Config.unlistedByte := by
  simp [wf]

/-- A byte reads as what was last written to it. -/
theorem read_write_self {m : Memory} (hm : m.wf) (a : Addr) (v : Byte) : (m.write a v).read a = v :=
  lookup_insert_self (wf_iff.1 hm).1 a.toNat v

/-- A write leaves every other byte alone. -/
theorem read_write_ne (m : Memory) {a b : Addr} (v : Byte) (h : b ≠ a) :
    (m.write a v).read b = m.read b :=
  lookup_insert_ne m v fun hn => h (BitVec.eq_of_toNat_eq hn)

/-- Both cases at once. -/
theorem read_write {m : Memory} (hm : m.wf) (a b : Addr) (v : Byte) :
    (m.write a v).read b = if b = a then v else m.read b := by
  split
  · next h => rw [h, read_write_self hm]
  · next h => exact read_write_ne m v h

/-- The keys listed after a store are the keys listed before and the one stored to. -/
theorem mem_insert {m : Memory} {n : Nat} {v : Byte} {c : Host.Cell} (h : c ∈ insert m n v) :
    (c = (n, v) ∧ v ≠ Config.unlistedByte) ∨ c ∈ m := by
  induction m with
  | nil =>
    simp only [insert] at h
    split at h
    · simp at h
    · next hv => exact .inl ⟨by simpa using h, hv⟩
  | cons d rest ih =>
    obtain ⟨q, w⟩ := d
    simp only [insert] at h
    split at h
    · split at h
      · exact .inr h
      · next hv =>
        rcases List.mem_cons.mp h with h | h
        · exact .inl ⟨h, hv⟩
        · exact .inr h
    · split at h
      · split at h
        · exact .inr (by simp [h])
        · next hv =>
          rcases List.mem_cons.mp h with h | h
          · exact .inl ⟨h, hv⟩
          · exact .inr (by simp [h])
      · rcases List.mem_cons.mp h with h | h
        · exact .inr (by simp [h])
        · rcases ih h with h | h
          · exact .inl h
          · exact .inr (by simp [h])

/-- A store keeps the keys rising. -/
theorem pairwise_insert {m : Memory} (hm : List.Pairwise (fun c d : Host.Cell => c.1 < d.1) m)
    (n : Nat) (v : Byte) : List.Pairwise (fun c d : Host.Cell => c.1 < d.1) (insert m n v) := by
  induction m with
  | nil =>
    simp only [insert]
    split <;> simp
  | cons d rest ih =>
    obtain ⟨q, w⟩ := d
    have hcons := hm
    rw [List.pairwise_cons] at hm
    simp only [insert]
    split
    · next hlt =>
      split
      · exact hcons
      · refine List.pairwise_cons.mpr ⟨fun c hc => ?_, hcons⟩
        rcases List.mem_cons.mp hc with rfl | hc
        · exact hlt
        · exact lt_trans hlt (hm.1 c hc)
    · split
      · next hq =>
        subst hq
        split
        · exact hm.2
        · exact List.pairwise_cons.mpr ⟨hm.1, hm.2⟩
      · next hlt hq =>
        refine List.pairwise_cons.mpr ⟨fun c hc => ?_, ih hm.2⟩
        rcases mem_insert hc with ⟨rfl, -⟩ | hc
        · simp only
          omega
        · exact hm.1 c hc

/-- A write keeps the canonical form. -/
theorem wf_write {m : Memory} (hm : m.wf) (a : Addr) (v : Byte) : (m.write a v).wf := by
  have hm := wf_iff.1 hm
  refine wf_iff.2 ⟨pairwise_insert hm.1 _ _, fun c hc => ?_⟩
  rcases mem_insert hc with ⟨rfl, hv⟩ | hc
  · exact ⟨a.isLt, hv⟩
  · exact hm.2 c hc

/-- A list of writes keeps the canonical form. -/
theorem wf_writes {m : Memory} (hm : m.wf) (ws : List (Addr × Byte)) : (m.writes ws).wf := by
  induction ws generalizing m with
  | nil => exact hm
  | cons w rest ih => exact ih (wf_write hm w.1 w.2)

/-- A list of writes leaves the bytes it does not name alone. -/
theorem read_writes_of_notMem (m : Memory) {ws : List (Addr × Byte)} {a : Addr}
    (h : ∀ w ∈ ws, w.1 ≠ a) : (m.writes ws).read a = m.read a := by
  induction ws generalizing m with
  | nil => rfl
  | cons w rest ih =>
    rw [writes, ih _ fun u hu => h u (by simp [hu]), read_write_ne]
    exact fun hw => h w (by simp) hw.symm

/-- Memory with nothing listed is in the canonical form. -/
theorem wf_nil : wf [] := rfl

end Sys2Proof.Machine.Memory
end

