-- ==== Sys2Proof/Laws/Ops.lean ====
section
/-! SUPPORT. What each shared operation can do, said once: the cursor, the bus, the stack, the operand
forms and the vector. -/

namespace Sys2Proof.Machine

namespace State

/-! ### The Memory Bus -/

@[simp] theorem busRead_fst (ad : Addr) (s : State) : (s.busRead ad).1 = s.mem.read ad := rfl

@[simp] theorem busRead_snd (ad : Addr) (s : State) :
    (s.busRead ad).2 = s.emit ad .read (s.mem.read ad) := rfl

@[simp] theorem readPair_fst (lo hi : Addr) (s : State) :
    (s.readPair lo hi).1 = word (s.mem.read lo) (s.mem.read hi) := rfl

@[simp] theorem readPair_snd (lo hi : Addr) (s : State) :
    (s.readPair lo hi).2 = (s.emit lo .read (s.mem.read lo)).emit hi .read (s.mem.read hi) := rfl

/-! ### The stack -/

theorem push_eq (v : Byte) (s : State) :
    s.push v = (s.busWrite (stackAddr s.sp) v).setSp (s.sp - 1) := rfl

@[simp] theorem pull_fst (s : State) : s.pull.1 = s.mem.read (stackAddr (s.sp + 1)) := rfl

@[simp] theorem pull_snd (s : State) :
    s.pull.2 = (s.setSp (s.sp + 1)).emit (stackAddr (s.sp + 1)) .read s.pull.1 := rfl

/-- Distinct stack offsets are distinct addresses (rule R58). -/
theorem stackAddr_inj {a b : Byte} (h : stackAddr a = stackAddr b) : a = b := by
  simp only [stackAddr, zext16] at h
  bv_omega

/-- The stack stays in its page (rules R60 and R61). -/
theorem stackAddr_page (b : Byte) : hiByte (stackAddr b) = 0x01#8 := by
  apply BitVec.eq_of_toNat_eq
  simp [stackAddr, zext16, hiByte]
  omega

/-! ### The cursor -/

@[simp] theorem consumeAll_a (bs : List Byte) (s : State) :
    (consumeAll bs s).a = s.a := by
  induction bs generalizing s with
  | nil => rfl
  | cons b rest ih => simp [consumeAll, ih]

@[simp] theorem consumeAll_x (bs : List Byte) (s : State) :
    (consumeAll bs s).x = s.x := by
  induction bs generalizing s with
  | nil => rfl
  | cons b rest ih => simp [consumeAll, ih]

@[simp] theorem consumeAll_y (bs : List Byte) (s : State) :
    (consumeAll bs s).y = s.y := by
  induction bs generalizing s with
  | nil => rfl
  | cons b rest ih => simp [consumeAll, ih]

@[simp] theorem consumeAll_sp (bs : List Byte) (s : State) :
    (consumeAll bs s).sp = s.sp := by
  induction bs generalizing s with
  | nil => rfl
  | cons b rest ih => simp [consumeAll, ih]

@[simp] theorem consumeAll_p (bs : List Byte) (s : State) :
    (consumeAll bs s).p = s.p := by
  induction bs generalizing s with
  | nil => rfl
  | cons b rest ih => simp [consumeAll, ih]

@[simp] theorem consumeAll_pc (bs : List Byte) (s : State) :
    (consumeAll bs s).pc = s.pc := by
  induction bs generalizing s with
  | nil => rfl
  | cons b rest ih => simp [consumeAll, ih]

@[simp] theorem consumeAll_mem (bs : List Byte) (s : State) :
    (consumeAll bs s).mem = s.mem := by
  induction bs generalizing s with
  | nil => rfl
  | cons b rest ih => simp [consumeAll, ih]

@[simp] theorem consumeAll_pcAtFetch (bs : List Byte) (s : State) :
    (consumeAll bs s).pcAtFetch = s.pcAtFetch := by
  induction bs generalizing s with
  | nil => rfl
  | cons b rest ih => simp [consumeAll, ih]

@[simp] theorem consumeAll_currentOpcode (bs : List Byte) (s : State) :
    (consumeAll bs s).currentOpcode = s.currentOpcode := by
  induction bs generalizing s with
  | nil => rfl
  | cons b rest ih => simp [consumeAll, ih]

@[simp] theorem consumeAll_branchDisplacement (bs : List Byte) (s : State) :
    (consumeAll bs s).branchDisplacement = s.branchDisplacement := by
  induction bs generalizing s with
  | nil => rfl
  | cons b rest ih => simp [consumeAll, ih]

@[simp] theorem consumeAll_dirty (bs : List Byte) (s : State) :
    (consumeAll bs s).dirty = s.dirty := by
  induction bs generalizing s with
  | nil => rfl
  | cons b rest ih => simp [consumeAll, ih]

@[simp] theorem consumeAll_wait (bs : List Byte) (s : State) :
    (consumeAll bs s).wait = s.wait := by
  induction bs generalizing s with
  | nil => rfl
  | cons b rest ih => simp [consumeAll, ih]

@[simp] theorem consumeAll_interruptPending (bs : List Byte) (s : State) :
    (consumeAll bs s).interruptPending = s.interruptPending := by
  induction bs generalizing s with
  | nil => rfl
  | cons b rest ih => simp [consumeAll, ih]

@[simp] theorem consumeAll_phase (bs : List Byte) (s : State) :
    (consumeAll bs s).phase = s.phase := by
  induction bs generalizing s with
  | nil => rfl
  | cons b rest ih => simp [consumeAll, ih]

@[simp] theorem consumeAll_icState (bs : List Byte) (s : State) :
    (consumeAll bs s).icState = s.icState := by
  induction bs generalizing s with
  | nil => rfl
  | cons b rest ih => simp [consumeAll, ih]

@[simp] theorem consumeAll_device (bs : List Byte) (s : State) :
    (consumeAll bs s).device = s.device := by
  induction bs generalizing s with
  | nil => rfl
  | cons b rest ih => simp [consumeAll, ih]

@[simp] theorem consumeAll_deviceCalls (bs : List Byte) (s : State) :
    (consumeAll bs s).deviceCalls = s.deviceCalls := by
  induction bs generalizing s with
  | nil => rfl
  | cons b rest ih => simp [consumeAll, ih]

@[simp] theorem consumeAll_draws (bs : List Byte) (s : State) :
    (consumeAll bs s).draws = s.draws := by
  induction bs generalizing s with
  | nil => rfl
  | cons b rest ih => simp [consumeAll, ih]

@[simp] theorem consumeAll_decodeOffset (bs : List Byte) (s : State) :
    (consumeAll bs s).decodeOffset = s.decodeOffset + bs.length := by
  induction bs generalizing s with
  | nil => rfl
  | cons b rest ih => simp [consumeAll, ih, Nat.add_assoc, Nat.add_comm 1]

@[simp] theorem consumeAll_nil (s : State) : consumeAll [] s = s := rfl

theorem consumeAll_cons (b : Byte) (bs : List Byte) (s : State) :
    consumeAll (b :: bs) s = consumeAll bs (s.consume b) := rfl

/-- Under `wrap` no cursor read is blocked (rule R105). -/
@[simp] theorem cursorBlocked_wrap (s : State) : s.cursorBlocked .wrap = false := rfl

theorem consumeUnder_wrap (bs : List Byte) (s : State) :
    consumeUnder .wrap bs s = .next (consumeAll bs s) := by
  induction bs generalizing s with
  | nil => rfl
  | cons b rest ih => simp [consumeUnder, consumeAll, ih]

/-- A cursor read of the byte that memory holds at the cursor is `Fetch()` (rule R104, log 14). -/
theorem fetch_wrap (s : State) :
    s.fetch .wrap = .next (s.mem.read s.cursorAddr, s.consume (s.mem.read s.cursorAddr)) := by
  simp [fetch]

/-- A handler with operand bytes completes. -/
@[simp] theorem withOperands_eq (bs : List Byte) (s : State) (f : State → State) :
    withOperands bs s f = .next (f (consumeAll bs s)) := rfl

end State

end Sys2Proof.Machine

namespace Sys2Proof

open Machine

/-! ### Operand forms -/

namespace MemMode

@[simp] theorem resolve_a (m : MemMode) (s : State) : (m.resolve s).2.a = s.a := by
  cases m <;> rfl

@[simp] theorem resolve_x (m : MemMode) (s : State) : (m.resolve s).2.x = s.x := by
  cases m <;> rfl

@[simp] theorem resolve_y (m : MemMode) (s : State) : (m.resolve s).2.y = s.y := by
  cases m <;> rfl

@[simp] theorem resolve_sp (m : MemMode) (s : State) : (m.resolve s).2.sp = s.sp := by
  cases m <;> rfl

@[simp] theorem resolve_p (m : MemMode) (s : State) : (m.resolve s).2.p = s.p := by
  cases m <;> rfl

@[simp] theorem resolve_pc (m : MemMode) (s : State) : (m.resolve s).2.pc = s.pc := by
  cases m <;> rfl

@[simp] theorem resolve_mem (m : MemMode) (s : State) : (m.resolve s).2.mem = s.mem := by
  cases m <;> rfl

@[simp] theorem resolve_pcAtFetch (m : MemMode) (s : State) : (m.resolve s).2.pcAtFetch = s.pcAtFetch := by
  cases m <;> rfl

@[simp] theorem resolve_currentOpcode (m : MemMode) (s : State) : (m.resolve s).2.currentOpcode = s.currentOpcode := by
  cases m <;> rfl

@[simp] theorem resolve_decodeOffset (m : MemMode) (s : State) : (m.resolve s).2.decodeOffset = s.decodeOffset := by
  cases m <;> rfl

@[simp] theorem resolve_branchDisplacement (m : MemMode) (s : State) : (m.resolve s).2.branchDisplacement = s.branchDisplacement := by
  cases m <;> rfl

@[simp] theorem resolve_dirty (m : MemMode) (s : State) : (m.resolve s).2.dirty = s.dirty := by
  cases m <;> rfl

@[simp] theorem resolve_wait (m : MemMode) (s : State) : (m.resolve s).2.wait = s.wait := by
  cases m <;> rfl

@[simp] theorem resolve_interruptPending (m : MemMode) (s : State) : (m.resolve s).2.interruptPending = s.interruptPending := by
  cases m <;> rfl

@[simp] theorem resolve_phase (m : MemMode) (s : State) : (m.resolve s).2.phase = s.phase := by
  cases m <;> rfl

@[simp] theorem resolve_icState (m : MemMode) (s : State) : (m.resolve s).2.icState = s.icState := by
  cases m <;> rfl

@[simp] theorem resolve_device (m : MemMode) (s : State) : (m.resolve s).2.device = s.device := by
  cases m <;> rfl

@[simp] theorem resolve_deviceCalls (m : MemMode) (s : State) : (m.resolve s).2.deviceCalls = s.deviceCalls := by
  cases m <;> rfl

@[simp] theorem resolve_draws (m : MemMode) (s : State) : (m.resolve s).2.draws = s.draws := by
  cases m <;> rfl

theorem resolve_fst (m : MemMode) (s : State) : (m.resolve s).1 = m.address s := rfl

/-- The effective address depends on X, Y and memory alone (rule R78). -/
theorem address_congr (m : MemMode) {s t : State} (hx : s.x = t.x) (hy : s.y = t.y)
    (hm : s.mem = t.mem) : m.address s = m.address t := by
  cases m <;> simp [address, resolve, hx, hy, hm]

/-- Consuming operand bytes leaves the effective address alone. -/
@[simp] theorem address_consumeAll (m : MemMode) (bs : List Byte) (s : State) :
    m.address (State.consumeAll bs s) = m.address s :=
  m.address_congr (by simp) (by simp) (by simp)

@[simp] theorem store_a (m : MemMode) (v : Byte) (s : State) :
    (m.store v s).a = s.a := by
  simp [store]

@[simp] theorem store_x (m : MemMode) (v : Byte) (s : State) :
    (m.store v s).x = s.x := by
  simp [store]

@[simp] theorem store_y (m : MemMode) (v : Byte) (s : State) :
    (m.store v s).y = s.y := by
  simp [store]

@[simp] theorem store_sp (m : MemMode) (v : Byte) (s : State) :
    (m.store v s).sp = s.sp := by
  simp [store]

@[simp] theorem store_p (m : MemMode) (v : Byte) (s : State) :
    (m.store v s).p = s.p := by
  simp [store]

@[simp] theorem store_pc (m : MemMode) (v : Byte) (s : State) :
    (m.store v s).pc = s.pc := by
  simp [store]

@[simp] theorem store_pcAtFetch (m : MemMode) (v : Byte) (s : State) :
    (m.store v s).pcAtFetch = s.pcAtFetch := by
  simp [store]

@[simp] theorem store_currentOpcode (m : MemMode) (v : Byte) (s : State) :
    (m.store v s).currentOpcode = s.currentOpcode := by
  simp [store]

@[simp] theorem store_decodeOffset (m : MemMode) (v : Byte) (s : State) :
    (m.store v s).decodeOffset = s.decodeOffset := by
  simp [store]

@[simp] theorem store_branchDisplacement (m : MemMode) (v : Byte) (s : State) :
    (m.store v s).branchDisplacement = s.branchDisplacement := by
  simp [store]

@[simp] theorem store_wait (m : MemMode) (v : Byte) (s : State) :
    (m.store v s).wait = s.wait := by
  simp [store]

@[simp] theorem store_interruptPending (m : MemMode) (v : Byte) (s : State) :
    (m.store v s).interruptPending = s.interruptPending := by
  simp [store]

@[simp] theorem store_phase (m : MemMode) (v : Byte) (s : State) :
    (m.store v s).phase = s.phase := by
  simp [store]

@[simp] theorem store_icState (m : MemMode) (v : Byte) (s : State) :
    (m.store v s).icState = s.icState := by
  simp [store]

@[simp] theorem store_device (m : MemMode) (v : Byte) (s : State) :
    (m.store v s).device = s.device := by
  simp [store]

@[simp] theorem store_deviceCalls (m : MemMode) (v : Byte) (s : State) :
    (m.store v s).deviceCalls = s.deviceCalls := by
  simp [store]

@[simp] theorem store_draws (m : MemMode) (v : Byte) (s : State) :
    (m.store v s).draws = s.draws := by
  simp [store]

/-- A store writes one byte, at the effective address (rule R140). -/
@[simp] theorem store_mem (m : MemMode) (v : Byte) (s : State) :
    (m.store v s).mem = s.mem.write (m.address s) v := by
  simp [store, address]

@[simp] theorem store_dirty (m : MemMode) (v : Byte) (s : State) : (m.store v s).dirty = true := rfl

@[simp] theorem modify_a (m : MemMode) (f : Byte → Byte → Byte × Byte) (s : State) :
    (m.modify f s).a = s.a := by
  simp [modify]

@[simp] theorem modify_x (m : MemMode) (f : Byte → Byte → Byte × Byte) (s : State) :
    (m.modify f s).x = s.x := by
  simp [modify]

@[simp] theorem modify_y (m : MemMode) (f : Byte → Byte → Byte × Byte) (s : State) :
    (m.modify f s).y = s.y := by
  simp [modify]

@[simp] theorem modify_sp (m : MemMode) (f : Byte → Byte → Byte × Byte) (s : State) :
    (m.modify f s).sp = s.sp := by
  simp [modify]

@[simp] theorem modify_pc (m : MemMode) (f : Byte → Byte → Byte × Byte) (s : State) :
    (m.modify f s).pc = s.pc := by
  simp [modify]

@[simp] theorem modify_pcAtFetch (m : MemMode) (f : Byte → Byte → Byte × Byte) (s : State) :
    (m.modify f s).pcAtFetch = s.pcAtFetch := by
  simp [modify]

@[simp] theorem modify_currentOpcode (m : MemMode) (f : Byte → Byte → Byte × Byte) (s : State) :
    (m.modify f s).currentOpcode = s.currentOpcode := by
  simp [modify]

@[simp] theorem modify_decodeOffset (m : MemMode) (f : Byte → Byte → Byte × Byte) (s : State) :
    (m.modify f s).decodeOffset = s.decodeOffset := by
  simp [modify]

@[simp] theorem modify_branchDisplacement (m : MemMode) (f : Byte → Byte → Byte × Byte) (s : State) :
    (m.modify f s).branchDisplacement = s.branchDisplacement := by
  simp [modify]

@[simp] theorem modify_wait (m : MemMode) (f : Byte → Byte → Byte × Byte) (s : State) :
    (m.modify f s).wait = s.wait := by
  simp [modify]

@[simp] theorem modify_interruptPending (m : MemMode) (f : Byte → Byte → Byte × Byte) (s : State) :
    (m.modify f s).interruptPending = s.interruptPending := by
  simp [modify]

@[simp] theorem modify_phase (m : MemMode) (f : Byte → Byte → Byte × Byte) (s : State) :
    (m.modify f s).phase = s.phase := by
  simp [modify]

@[simp] theorem modify_icState (m : MemMode) (f : Byte → Byte → Byte × Byte) (s : State) :
    (m.modify f s).icState = s.icState := by
  simp [modify]

@[simp] theorem modify_device (m : MemMode) (f : Byte → Byte → Byte × Byte) (s : State) :
    (m.modify f s).device = s.device := by
  simp [modify]

@[simp] theorem modify_deviceCalls (m : MemMode) (f : Byte → Byte → Byte × Byte) (s : State) :
    (m.modify f s).deviceCalls = s.deviceCalls := by
  simp [modify]

@[simp] theorem modify_draws (m : MemMode) (f : Byte → Byte → Byte × Byte) (s : State) :
    (m.modify f s).draws = s.draws := by
  simp [modify]

/-- A read-modify-write instruction writes one byte, at the effective address (rule R140). -/
@[simp] theorem modify_mem (m : MemMode) (f : Byte → Byte → Byte × Byte) (s : State) :
    (m.modify f s).mem = s.mem.write (m.address s) (f (s.mem.read (m.address s)) s.p).1 := by
  simp [modify, resolve_fst]

@[simp] theorem modify_p (m : MemMode) (f : Byte → Byte → Byte × Byte) (s : State) :
    (m.modify f s).p = (f (s.mem.read (m.address s)) s.p).2 := by
  simp [modify, resolve_fst]

@[simp] theorem modify_dirty (m : MemMode) (f : Byte → Byte → Byte × Byte) (s : State) :
    (m.modify f s).dirty = true := rfl

end MemMode

namespace Source

@[simp] theorem load_a (src : Source) (s : State) : (src.load s).2.a = s.a := by
  cases src <;> simp [load]

@[simp] theorem load_x (src : Source) (s : State) : (src.load s).2.x = s.x := by
  cases src <;> simp [load]

@[simp] theorem load_y (src : Source) (s : State) : (src.load s).2.y = s.y := by
  cases src <;> simp [load]

@[simp] theorem load_sp (src : Source) (s : State) : (src.load s).2.sp = s.sp := by
  cases src <;> simp [load]

@[simp] theorem load_p (src : Source) (s : State) : (src.load s).2.p = s.p := by
  cases src <;> simp [load]

@[simp] theorem load_pc (src : Source) (s : State) : (src.load s).2.pc = s.pc := by
  cases src <;> simp [load]

@[simp] theorem load_mem (src : Source) (s : State) : (src.load s).2.mem = s.mem := by
  cases src <;> simp [load]

@[simp] theorem load_pcAtFetch (src : Source) (s : State) : (src.load s).2.pcAtFetch = s.pcAtFetch := by
  cases src <;> simp [load]

@[simp] theorem load_currentOpcode (src : Source) (s : State) : (src.load s).2.currentOpcode = s.currentOpcode := by
  cases src <;> simp [load]

@[simp] theorem load_decodeOffset (src : Source) (s : State) : (src.load s).2.decodeOffset = s.decodeOffset := by
  cases src <;> simp [load]

@[simp] theorem load_branchDisplacement (src : Source) (s : State) : (src.load s).2.branchDisplacement = s.branchDisplacement := by
  cases src <;> simp [load]

@[simp] theorem load_dirty (src : Source) (s : State) : (src.load s).2.dirty = s.dirty := by
  cases src <;> simp [load]

@[simp] theorem load_wait (src : Source) (s : State) : (src.load s).2.wait = s.wait := by
  cases src <;> simp [load]

@[simp] theorem load_interruptPending (src : Source) (s : State) : (src.load s).2.interruptPending = s.interruptPending := by
  cases src <;> simp [load]

@[simp] theorem load_phase (src : Source) (s : State) : (src.load s).2.phase = s.phase := by
  cases src <;> simp [load]

@[simp] theorem load_icState (src : Source) (s : State) : (src.load s).2.icState = s.icState := by
  cases src <;> simp [load]

@[simp] theorem load_device (src : Source) (s : State) : (src.load s).2.device = s.device := by
  cases src <;> simp [load]

@[simp] theorem load_deviceCalls (src : Source) (s : State) : (src.load s).2.deviceCalls = s.deviceCalls := by
  cases src <;> simp [load]

@[simp] theorem load_draws (src : Source) (s : State) : (src.load s).2.draws = s.draws := by
  cases src <;> simp [load]

@[simp] theorem load_fst (src : Source) (s : State) : (src.load s).1 = src.value s := rfl

@[simp] theorem value_imm (b : Byte) (s : State) : (Source.imm b).value s = b := rfl

@[simp] theorem value_mem (m : MemMode) (s : State) :
    (Source.mem m).value s = s.mem.read (m.address s) := by
  simp [value, load, MemMode.resolve_fst]

@[simp] theorem value_consumeAll (src : Source) (bs : List Byte) (s : State) :
    src.value (State.consumeAll bs s) = src.value s := by
  cases src <;> simp

end Source

namespace JumpTarget

@[simp] theorem resolve_a (t : JumpTarget) (s : State) : (t.resolve s).2.a = s.a := by
  cases t <;> rfl

@[simp] theorem resolve_x (t : JumpTarget) (s : State) : (t.resolve s).2.x = s.x := by
  cases t <;> rfl

@[simp] theorem resolve_y (t : JumpTarget) (s : State) : (t.resolve s).2.y = s.y := by
  cases t <;> rfl

@[simp] theorem resolve_sp (t : JumpTarget) (s : State) : (t.resolve s).2.sp = s.sp := by
  cases t <;> rfl

@[simp] theorem resolve_p (t : JumpTarget) (s : State) : (t.resolve s).2.p = s.p := by
  cases t <;> rfl

@[simp] theorem resolve_pc (t : JumpTarget) (s : State) : (t.resolve s).2.pc = s.pc := by
  cases t <;> rfl

@[simp] theorem resolve_mem (t : JumpTarget) (s : State) : (t.resolve s).2.mem = s.mem := by
  cases t <;> rfl

@[simp] theorem resolve_pcAtFetch (t : JumpTarget) (s : State) : (t.resolve s).2.pcAtFetch = s.pcAtFetch := by
  cases t <;> rfl

@[simp] theorem resolve_currentOpcode (t : JumpTarget) (s : State) : (t.resolve s).2.currentOpcode = s.currentOpcode := by
  cases t <;> rfl

@[simp] theorem resolve_decodeOffset (t : JumpTarget) (s : State) : (t.resolve s).2.decodeOffset = s.decodeOffset := by
  cases t <;> rfl

@[simp] theorem resolve_branchDisplacement (t : JumpTarget) (s : State) : (t.resolve s).2.branchDisplacement = s.branchDisplacement := by
  cases t <;> rfl

@[simp] theorem resolve_dirty (t : JumpTarget) (s : State) : (t.resolve s).2.dirty = s.dirty := by
  cases t <;> rfl

@[simp] theorem resolve_wait (t : JumpTarget) (s : State) : (t.resolve s).2.wait = s.wait := by
  cases t <;> rfl

@[simp] theorem resolve_interruptPending (t : JumpTarget) (s : State) : (t.resolve s).2.interruptPending = s.interruptPending := by
  cases t <;> rfl

@[simp] theorem resolve_phase (t : JumpTarget) (s : State) : (t.resolve s).2.phase = s.phase := by
  cases t <;> rfl

@[simp] theorem resolve_icState (t : JumpTarget) (s : State) : (t.resolve s).2.icState = s.icState := by
  cases t <;> rfl

@[simp] theorem resolve_device (t : JumpTarget) (s : State) : (t.resolve s).2.device = s.device := by
  cases t <;> rfl

@[simp] theorem resolve_deviceCalls (t : JumpTarget) (s : State) : (t.resolve s).2.deviceCalls = s.deviceCalls := by
  cases t <;> rfl

@[simp] theorem resolve_draws (t : JumpTarget) (s : State) : (t.resolve s).2.draws = s.draws := by
  cases t <;> rfl

theorem resolve_fst (t : JumpTarget) (s : State) : (t.resolve s).1 = t.address s := rfl

/-- Consuming operand bytes leaves the target alone. -/
@[simp] theorem address_consumeAll (t : JumpTarget) (bs : List Byte) (s : State) :
    t.address (State.consumeAll bs s) = t.address s := by
  cases t <;> simp [address, resolve]

end JumpTarget

end Sys2Proof
end

