-- ==== Sys2Proof/Laws/Families.lean ====
section
/-! SUPPORT. What the operations shared by a family can do: ADC and SBC, the read-modify-write forms, and the sequence that
saves the program and takes the vector. -/

namespace Sys2Proof

open Machine

namespace Machine

namespace State

/-! ### ADC and SBC -/

/-- ADC with D clear (rule R141). -/
theorem addWithCarry_clear {s : State} (h : s.flag .D = false) (m : Byte) :
    s.addWithCarry m
      = { s with a := (Alu.addBinary s.a m s.p).1, p := (Alu.addBinary s.a m s.p).2 } := by
  simp [addWithCarry, h]

/-- ADC with D set (rule R143). -/
theorem addWithCarry_set {s : State} (h : s.flag .D = true) (m : Byte) :
    s.addWithCarry m
      = { s with
          a := (Alu.addDecimal s.draws s.a m s.p).1
          p := (Alu.addDecimal s.draws s.a m s.p).2
          draws := s.draws + 1 } := by
  simp [addWithCarry, h]

/-- SBC with D clear (rule R142). -/
theorem subtractWithBorrow_clear {s : State} (h : s.flag .D = false) (m : Byte) :
    s.subtractWithBorrow m
      = { s with a := (Alu.subBinary s.a m s.p).1, p := (Alu.subBinary s.a m s.p).2 } := by
  simp [subtractWithBorrow, h]

/-- SBC with D set (rule R143). -/
theorem subtractWithBorrow_set {s : State} (h : s.flag .D = true) (m : Byte) :
    s.subtractWithBorrow m
      = { s with
          a := (Alu.subDecimal s.draws s.a m s.p).1
          p := (Alu.subDecimal s.draws s.a m s.p).2
          draws := s.draws + 1 } := by
  simp [subtractWithBorrow, h]

/-! ### Pushes and the vector -/

/-- A push in full (rule R58). -/
theorem push_spec (v : Byte) (s : State) :
    s.push v = { s with
      mem := s.mem.write (stackAddr s.sp) v
      sp := s.sp - 1
      dirty := true
      trace := ⟨stackAddr s.sp, .write, v⟩ :: s.trace } := rfl

/-- A pull in full (rule R59). -/
theorem pull_spec (s : State) :
    s.pull = (s.mem.read (stackAddr (s.sp + 1)), { s with
      sp := s.sp + 1
      trace := ⟨stackAddr (s.sp + 1), .read, s.mem.read (stackAddr (s.sp + 1))⟩ :: s.trace }) := rfl

/-- The stack never holds the vector (rule R61). -/
theorem stackAddr_ne_vector (b : Byte) : vectorLo ≠ stackAddr b ∧ vectorHi ≠ stackAddr b := by
  simp only [stackAddr, zext16, vectorLo, vectorHi]
  constructor <;> bv_omega

/-- The memory after a return frame has been pushed (rules R244 and R265). -/
def frameMem (ret : Addr) (status sp : Byte) (m : Memory) : Memory :=
  ((m.write (stackAddr sp) (hiByte ret)).write (stackAddr (sp - 1)) (loByte ret)).write
    (stackAddr (sp - 1 - 1)) status

/-- The frame leaves the vector as it was. -/
theorem frameMem_vector (ret : Addr) (status sp : Byte) (m : Memory) :
    (frameMem ret status sp m).read vectorLo = m.read vectorLo
      ∧ (frameMem ret status sp m).read vectorHi = m.read vectorHi := by
  simp only [frameMem]
  constructor <;>
    rw [Memory.read_write_ne, Memory.read_write_ne, Memory.read_write_ne]
  all_goals first
    | exact (stackAddr_ne_vector _).1
    | exact (stackAddr_ne_vector _).2

/-- Everything that taking the vector does (rules R244 and R265). -/
theorem enterVector_spec (ret : Addr) (status : Byte) (s : State) :
    s.enterVector ret status = { s with
      mem := frameMem ret status s.sp s.mem
      sp := s.sp - 1 - 1 - 1
      dirty := true
      pc := word (s.mem.read vectorLo) (s.mem.read vectorHi)
      p := Status.setFlag .I true s.p
      trace := ⟨vectorHi, .read, s.mem.read vectorHi⟩ :: ⟨vectorLo, .read, s.mem.read vectorLo⟩
        :: ⟨stackAddr (s.sp - 1 - 1), .write, status⟩
        :: ⟨stackAddr (s.sp - 1), .write, loByte ret⟩
        :: ⟨stackAddr s.sp, .write, hiByte ret⟩ :: s.trace } := by
  have h := frameMem_vector ret status s.sp s.mem
  simp only [frameMem] at h
  simp only [enterVector, pushAddr, push_spec, readPair_fst, readPair_snd, emit, setPc, setFlag, setP,
    frameMem, h.1, h.2]

/-- Everything that an injection does (rule R265). -/
theorem inject_spec (s : State) :
    s.inject = { s with
      mem := frameMem s.pc s.p s.sp s.mem
      sp := s.sp - 1 - 1 - 1
      dirty := true
      pc := word (s.mem.read vectorLo) (s.mem.read vectorHi)
      p := Status.setFlag .I true s.p
      interruptPending := false
      icState := .armed
      trace := ⟨vectorHi, .read, s.mem.read vectorHi⟩ :: ⟨vectorLo, .read, s.mem.read vectorLo⟩
        :: ⟨stackAddr (s.sp - 1 - 1), .write, s.p⟩
        :: ⟨stackAddr (s.sp - 1), .write, loByte s.pc⟩
        :: ⟨stackAddr s.sp, .write, hiByte s.pc⟩ :: s.trace } := by
  rw [inject, enterVector_spec]

/-- The frame reads back: the three bytes at their addresses, all other bytes as before (rules R58 and R265). -/
theorem frameMem_read {m : Memory} (hm : m.wf) (ret : Addr) (status sp : Byte) :
    (frameMem ret status sp m).read (stackAddr sp) = hiByte ret
      ∧ (frameMem ret status sp m).read (stackAddr (sp - 1)) = loByte ret
      ∧ (frameMem ret status sp m).read (stackAddr (sp - 1 - 1)) = status := by
  have w1 := Memory.wf_write hm (stackAddr sp) (hiByte ret)
  have w2 := Memory.wf_write w1 (stackAddr (sp - 1)) (loByte ret)
  have n1 : stackAddr sp ≠ stackAddr (sp - 1) := fun h => by
    have := stackAddr_inj h
    bv_omega
  have n2 : stackAddr sp ≠ stackAddr (sp - 1 - 1) := fun h => by
    have := stackAddr_inj h
    bv_omega
  have n3 : stackAddr (sp - 1) ≠ stackAddr (sp - 1 - 1) := fun h => by
    have := stackAddr_inj h
    bv_omega
  refine ⟨?_, ?_, Memory.read_write_self w2 _ _⟩
  · rw [frameMem, Memory.read_write_ne _ _ n2, Memory.read_write_ne _ _ n1,
      Memory.read_write_self hm]
  · rw [frameMem, Memory.read_write_ne _ _ n3, Memory.read_write_self w1]

/-- A byte outside the frame is as before (rule R60). -/
theorem frameMem_other (m : Memory) (ret : Addr) (status sp : Byte) {a : Addr}
    (h0 : a ≠ stackAddr sp) (h1 : a ≠ stackAddr (sp - 1)) (h2 : a ≠ stackAddr (sp - 1 - 1)) :
    (frameMem ret status sp m).read a = m.read a := by
  rw [frameMem, Memory.read_write_ne _ _ h2, Memory.read_write_ne _ _ h1,
    Memory.read_write_ne _ _ h0]

theorem wf_frameMem {m : Memory} (hm : m.wf) (ret : Addr) (status sp : Byte) :
    (frameMem ret status sp m).wf :=
  Memory.wf_write (Memory.wf_write (Memory.wf_write hm _ _) _ _) _ _

/-- Everything that the return does (rule R245). -/
theorem returnFromVector_spec (s : State) :
    s.returnFromVector = { s with
      p := s.mem.read (stackAddr (s.sp + 1))
      pc := word (s.mem.read (stackAddr (s.sp + 1 + 1))) (s.mem.read (stackAddr (s.sp + 1 + 1 + 1)))
      sp := s.sp + 1 + 1 + 1
      trace := ⟨stackAddr (s.sp + 1 + 1 + 1), .read, s.mem.read (stackAddr (s.sp + 1 + 1 + 1))⟩
        :: ⟨stackAddr (s.sp + 1 + 1), .read, s.mem.read (stackAddr (s.sp + 1 + 1))⟩
        :: ⟨stackAddr (s.sp + 1), .read, s.mem.read (stackAddr (s.sp + 1))⟩ :: s.trace } := by
  simp only [returnFromVector, pullAddr, pull_spec, setP, setPc]

end State

end Machine

/-! ### Read-modify-write -/

namespace RmwTarget

/-- A form on A (rule R140). -/
theorem modify_acc (f : Byte → Byte → Byte × Byte) (s : State) :
    RmwTarget.acc.modify f s = { s with a := (f s.a s.p).1, p := (f s.a s.p).2 } := rfl

/-- A form on memory (rule R140): one read, one write to the same address. -/
theorem modify_mem (m : MemMode) (f : Byte → Byte → Byte × Byte) (s : State) :
    ((RmwTarget.mem m).modify f s).mem
        = s.mem.write (m.address s) (f (s.mem.read (m.address s)) s.p).1
      ∧ ((RmwTarget.mem m).modify f s).p = (f (s.mem.read (m.address s)) s.p).2
      ∧ ((RmwTarget.mem m).modify f s).a = s.a
      ∧ ((RmwTarget.mem m).modify f s).dirty = true := by
  simp [modify]

/-- The status after either form. -/
theorem modify_status (t : RmwTarget) (f : Byte → Byte → Byte × Byte) (s : State) :
    (t.modify f s).p = (f (t.value s) s.p).2 := by
  cases t <;> simp [modify, value]

/-- Consuming operand bytes leaves the starting value alone. -/
@[simp] theorem value_consumeAll (t : RmwTarget) (bs : List Byte) (s : State) :
    t.value (State.consumeAll bs s) = t.value s := by
  cases t <;> simp [value]

end RmwTarget

end Sys2Proof
end

