-- ==== Sys2Proof/Laws/PerInstr.lean ====
section
/-! SUPPORT. Facts that hold of every instruction, one lemma per constructor: decoding the encoding of a
well-formed instruction, whatever follows it, gives the instruction and what follows (rules R75 to R91). -/

namespace Sys2Proof.Laws.RoundTrip

/-- Decoding gives back what was encoded, with every operand. -/
def Statement (i : Instr) : Prop :=
  i.WellFormed → ∀ rest, decode (encode i ++ rest) = .ok i rest

theorem brk (sig : Byte) : Statement (.brk sig) := fun _ _ => decode_two (fun _ => rfl) rfl

theorem ora (src : Source) : Statement (.ora src) := by
  intro h rest
  rcases src with b | (z | z | z | a | a | a | z | z | z) <;> first
    | exact decode_two (fun _ => rfl) rfl
    | exact decode_abs (fun a => .ora (.mem (.abs a))) (fun _ _ => rfl) rfl
    | exact decode_abs (fun a => .ora (.mem (.abx a))) (fun _ _ => rfl) rfl
    | exact decode_abs (fun a => .ora (.mem (.aby a))) (fun _ _ => rfl) rfl
    | exact absurd h.1 Bool.false_ne_true

theorem unmapped (op : Byte) : Statement (.unmapped op) := by
  intro h rest
  have hop : Config.mapped op = false := by simpa [Instr.unmappedOk] using h.2
  exact decode_one (fun _ _ => by simp [Decode.instrOf, hop]) rfl

theorem tsb (m : MemMode) : Statement (.tsb m) := by
  intro h rest
  rcases m with z | z | z | a | a | a | z | z | z <;> first
    | exact decode_two (fun _ => rfl) rfl
    | exact decode_abs (fun a => .tsb (.abs a)) (fun _ _ => rfl) rfl
    | exact absurd h.1 Bool.false_ne_true

theorem asl (t : RmwTarget) : Statement (.asl t) := by
  intro h rest
  rcases t with _ | (z | z | z | a | a | a | z | z | z) <;> first
    | exact decode_one (fun _ _ => rfl) rfl
    | exact decode_two (fun _ => rfl) rfl
    | exact decode_abs (fun a => .asl (.mem (.abs a))) (fun _ _ => rfl) rfl
    | exact decode_abs (fun a => .asl (.mem (.abx a))) (fun _ _ => rfl) rfl
    | exact absurd h.1 Bool.false_ne_true

theorem rmb0 (z : Byte) : Statement (.rmb0 z) := fun _ _ => decode_two (fun _ => rfl) rfl

theorem php : Statement .php := fun _ _ => decode_one (fun _ _ => rfl) rfl

theorem bbr0 (z rel : Byte) : Statement (.bbr0 z rel) := fun _ _ => decode_three rfl rfl

theorem bpl (rel : Byte) : Statement (.bpl rel) := fun _ _ => decode_two (fun _ => rfl) rfl

theorem trb (m : MemMode) : Statement (.trb m) := by
  intro h rest
  rcases m with z | z | z | a | a | a | z | z | z <;> first
    | exact decode_two (fun _ => rfl) rfl
    | exact decode_abs (fun a => .trb (.abs a)) (fun _ _ => rfl) rfl
    | exact absurd h.1 Bool.false_ne_true

theorem rmb1 (z : Byte) : Statement (.rmb1 z) := fun _ _ => decode_two (fun _ => rfl) rfl

theorem clc : Statement .clc := fun _ _ => decode_one (fun _ _ => rfl) rfl

theorem inc (t : RmwTarget) : Statement (.inc t) := by
  intro h rest
  rcases t with _ | (z | z | z | a | a | a | z | z | z) <;> first
    | exact decode_one (fun _ _ => rfl) rfl
    | exact decode_two (fun _ => rfl) rfl
    | exact decode_abs (fun a => .inc (.mem (.abs a))) (fun _ _ => rfl) rfl
    | exact decode_abs (fun a => .inc (.mem (.abx a))) (fun _ _ => rfl) rfl
    | exact absurd h.1 Bool.false_ne_true

theorem bbr1 (z rel : Byte) : Statement (.bbr1 z rel) := fun _ _ => decode_three rfl rfl

theorem jsr (target : Addr) : Statement (.jsr target) := fun _ _ =>
  decode_abs .jsr (fun _ _ => rfl) rfl

theorem and (src : Source) : Statement (.and src) := by
  intro h rest
  rcases src with b | (z | z | z | a | a | a | z | z | z) <;> first
    | exact decode_two (fun _ => rfl) rfl
    | exact decode_abs (fun a => .and (.mem (.abs a))) (fun _ _ => rfl) rfl
    | exact decode_abs (fun a => .and (.mem (.abx a))) (fun _ _ => rfl) rfl
    | exact decode_abs (fun a => .and (.mem (.aby a))) (fun _ _ => rfl) rfl
    | exact absurd h.1 Bool.false_ne_true

theorem bit (src : Source) : Statement (.bit src) := by
  intro h rest
  rcases src with b | (z | z | z | a | a | a | z | z | z) <;> first
    | exact decode_two (fun _ => rfl) rfl
    | exact decode_abs (fun a => .bit (.mem (.abs a))) (fun _ _ => rfl) rfl
    | exact decode_abs (fun a => .bit (.mem (.abx a))) (fun _ _ => rfl) rfl
    | exact absurd h.1 Bool.false_ne_true

theorem rol (t : RmwTarget) : Statement (.rol t) := by
  intro h rest
  rcases t with _ | (z | z | z | a | a | a | z | z | z) <;> first
    | exact decode_one (fun _ _ => rfl) rfl
    | exact decode_two (fun _ => rfl) rfl
    | exact decode_abs (fun a => .rol (.mem (.abs a))) (fun _ _ => rfl) rfl
    | exact decode_abs (fun a => .rol (.mem (.abx a))) (fun _ _ => rfl) rfl
    | exact absurd h.1 Bool.false_ne_true

theorem rmb2 (z : Byte) : Statement (.rmb2 z) := fun _ _ => decode_two (fun _ => rfl) rfl

theorem plp : Statement .plp := fun _ _ => decode_one (fun _ _ => rfl) rfl

theorem bbr2 (z rel : Byte) : Statement (.bbr2 z rel) := fun _ _ => decode_three rfl rfl

theorem bmi (rel : Byte) : Statement (.bmi rel) := fun _ _ => decode_two (fun _ => rfl) rfl

theorem rmb3 (z : Byte) : Statement (.rmb3 z) := fun _ _ => decode_two (fun _ => rfl) rfl

theorem sec : Statement .sec := fun _ _ => decode_one (fun _ _ => rfl) rfl

theorem dec (t : RmwTarget) : Statement (.dec t) := by
  intro h rest
  rcases t with _ | (z | z | z | a | a | a | z | z | z) <;> first
    | exact decode_one (fun _ _ => rfl) rfl
    | exact decode_two (fun _ => rfl) rfl
    | exact decode_abs (fun a => .dec (.mem (.abs a))) (fun _ _ => rfl) rfl
    | exact decode_abs (fun a => .dec (.mem (.abx a))) (fun _ _ => rfl) rfl
    | exact absurd h.1 Bool.false_ne_true

theorem bbr3 (z rel : Byte) : Statement (.bbr3 z rel) := fun _ _ => decode_three rfl rfl

theorem rti : Statement .rti := fun _ _ => decode_one (fun _ _ => rfl) rfl

theorem eor (src : Source) : Statement (.eor src) := by
  intro h rest
  rcases src with b | (z | z | z | a | a | a | z | z | z) <;> first
    | exact decode_two (fun _ => rfl) rfl
    | exact decode_abs (fun a => .eor (.mem (.abs a))) (fun _ _ => rfl) rfl
    | exact decode_abs (fun a => .eor (.mem (.abx a))) (fun _ _ => rfl) rfl
    | exact decode_abs (fun a => .eor (.mem (.aby a))) (fun _ _ => rfl) rfl
    | exact absurd h.1 Bool.false_ne_true

theorem lsr (t : RmwTarget) : Statement (.lsr t) := by
  intro h rest
  rcases t with _ | (z | z | z | a | a | a | z | z | z) <;> first
    | exact decode_one (fun _ _ => rfl) rfl
    | exact decode_two (fun _ => rfl) rfl
    | exact decode_abs (fun a => .lsr (.mem (.abs a))) (fun _ _ => rfl) rfl
    | exact decode_abs (fun a => .lsr (.mem (.abx a))) (fun _ _ => rfl) rfl
    | exact absurd h.1 Bool.false_ne_true

theorem rmb4 (z : Byte) : Statement (.rmb4 z) := fun _ _ => decode_two (fun _ => rfl) rfl

theorem pha : Statement .pha := fun _ _ => decode_one (fun _ _ => rfl) rfl

theorem jmp (t : JumpTarget) : Statement (.jmp t) := by
  intro h rest
  rcases t with a | a | a
  · exact decode_abs (fun a => .jmp (.abs a)) (fun _ _ => rfl) rfl
  · exact decode_abs (fun a => .jmp (.ind a)) (fun _ _ => rfl) rfl
  · exact decode_abs (fun a => .jmp (.iax a)) (fun _ _ => rfl) rfl

theorem bbr4 (z rel : Byte) : Statement (.bbr4 z rel) := fun _ _ => decode_three rfl rfl

theorem bvc (rel : Byte) : Statement (.bvc rel) := fun _ _ => decode_two (fun _ => rfl) rfl

theorem rmb5 (z : Byte) : Statement (.rmb5 z) := fun _ _ => decode_two (fun _ => rfl) rfl

theorem cli : Statement .cli := fun _ _ => decode_one (fun _ _ => rfl) rfl

theorem phy : Statement .phy := fun _ _ => decode_one (fun _ _ => rfl) rfl

theorem bbr5 (z rel : Byte) : Statement (.bbr5 z rel) := fun _ _ => decode_three rfl rfl

theorem rts : Statement .rts := fun _ _ => decode_one (fun _ _ => rfl) rfl

theorem adc (src : Source) : Statement (.adc src) := by
  intro h rest
  rcases src with b | (z | z | z | a | a | a | z | z | z) <;> first
    | exact decode_two (fun _ => rfl) rfl
    | exact decode_abs (fun a => .adc (.mem (.abs a))) (fun _ _ => rfl) rfl
    | exact decode_abs (fun a => .adc (.mem (.abx a))) (fun _ _ => rfl) rfl
    | exact decode_abs (fun a => .adc (.mem (.aby a))) (fun _ _ => rfl) rfl
    | exact absurd h.1 Bool.false_ne_true

theorem stz (m : MemMode) : Statement (.stz m) := by
  intro h rest
  rcases m with z | z | z | a | a | a | z | z | z <;> first
    | exact decode_two (fun _ => rfl) rfl
    | exact decode_abs (fun a => .stz (.abs a)) (fun _ _ => rfl) rfl
    | exact decode_abs (fun a => .stz (.abx a)) (fun _ _ => rfl) rfl
    | exact absurd h.1 Bool.false_ne_true

theorem ror (t : RmwTarget) : Statement (.ror t) := by
  intro h rest
  rcases t with _ | (z | z | z | a | a | a | z | z | z) <;> first
    | exact decode_one (fun _ _ => rfl) rfl
    | exact decode_two (fun _ => rfl) rfl
    | exact decode_abs (fun a => .ror (.mem (.abs a))) (fun _ _ => rfl) rfl
    | exact decode_abs (fun a => .ror (.mem (.abx a))) (fun _ _ => rfl) rfl
    | exact absurd h.1 Bool.false_ne_true

theorem rmb6 (z : Byte) : Statement (.rmb6 z) := fun _ _ => decode_two (fun _ => rfl) rfl

theorem pla : Statement .pla := fun _ _ => decode_one (fun _ _ => rfl) rfl

theorem bbr6 (z rel : Byte) : Statement (.bbr6 z rel) := fun _ _ => decode_three rfl rfl

theorem bvs (rel : Byte) : Statement (.bvs rel) := fun _ _ => decode_two (fun _ => rfl) rfl

theorem rmb7 (z : Byte) : Statement (.rmb7 z) := fun _ _ => decode_two (fun _ => rfl) rfl

theorem sei : Statement .sei := fun _ _ => decode_one (fun _ _ => rfl) rfl

theorem ply : Statement .ply := fun _ _ => decode_one (fun _ _ => rfl) rfl

theorem bbr7 (z rel : Byte) : Statement (.bbr7 z rel) := fun _ _ => decode_three rfl rfl

theorem bra (rel : Byte) : Statement (.bra rel) := fun _ _ => decode_two (fun _ => rfl) rfl

theorem sta (m : MemMode) : Statement (.sta m) := by
  intro h rest
  rcases m with z | z | z | a | a | a | z | z | z <;> first
    | exact decode_two (fun _ => rfl) rfl
    | exact decode_abs (fun a => .sta (.abs a)) (fun _ _ => rfl) rfl
    | exact decode_abs (fun a => .sta (.abx a)) (fun _ _ => rfl) rfl
    | exact decode_abs (fun a => .sta (.aby a)) (fun _ _ => rfl) rfl
    | exact absurd h.1 Bool.false_ne_true

theorem sty (m : MemMode) : Statement (.sty m) := by
  intro h rest
  rcases m with z | z | z | a | a | a | z | z | z <;> first
    | exact decode_two (fun _ => rfl) rfl
    | exact decode_abs (fun a => .sty (.abs a)) (fun _ _ => rfl) rfl
    | exact absurd h.1 Bool.false_ne_true

theorem stx (m : MemMode) : Statement (.stx m) := by
  intro h rest
  rcases m with z | z | z | a | a | a | z | z | z <;> first
    | exact decode_two (fun _ => rfl) rfl
    | exact decode_abs (fun a => .stx (.abs a)) (fun _ _ => rfl) rfl
    | exact absurd h.1 Bool.false_ne_true

theorem smb0 (z : Byte) : Statement (.smb0 z) := fun _ _ => decode_two (fun _ => rfl) rfl

theorem dey : Statement .dey := fun _ _ => decode_one (fun _ _ => rfl) rfl

theorem txa : Statement .txa := fun _ _ => decode_one (fun _ _ => rfl) rfl

theorem bbs0 (z rel : Byte) : Statement (.bbs0 z rel) := fun _ _ => decode_three rfl rfl

theorem bcc (rel : Byte) : Statement (.bcc rel) := fun _ _ => decode_two (fun _ => rfl) rfl

theorem smb1 (z : Byte) : Statement (.smb1 z) := fun _ _ => decode_two (fun _ => rfl) rfl

theorem tya : Statement .tya := fun _ _ => decode_one (fun _ _ => rfl) rfl

theorem txs : Statement .txs := fun _ _ => decode_one (fun _ _ => rfl) rfl

theorem bbs1 (z rel : Byte) : Statement (.bbs1 z rel) := fun _ _ => decode_three rfl rfl

theorem ldy (src : Source) : Statement (.ldy src) := by
  intro h rest
  rcases src with b | (z | z | z | a | a | a | z | z | z) <;> first
    | exact decode_two (fun _ => rfl) rfl
    | exact decode_abs (fun a => .ldy (.mem (.abs a))) (fun _ _ => rfl) rfl
    | exact decode_abs (fun a => .ldy (.mem (.abx a))) (fun _ _ => rfl) rfl
    | exact absurd h.1 Bool.false_ne_true

theorem lda (src : Source) : Statement (.lda src) := by
  intro h rest
  rcases src with b | (z | z | z | a | a | a | z | z | z) <;> first
    | exact decode_two (fun _ => rfl) rfl
    | exact decode_abs (fun a => .lda (.mem (.abs a))) (fun _ _ => rfl) rfl
    | exact decode_abs (fun a => .lda (.mem (.abx a))) (fun _ _ => rfl) rfl
    | exact decode_abs (fun a => .lda (.mem (.aby a))) (fun _ _ => rfl) rfl
    | exact absurd h.1 Bool.false_ne_true

theorem ldx (src : Source) : Statement (.ldx src) := by
  intro h rest
  rcases src with b | (z | z | z | a | a | a | z | z | z) <;> first
    | exact decode_two (fun _ => rfl) rfl
    | exact decode_abs (fun a => .ldx (.mem (.abs a))) (fun _ _ => rfl) rfl
    | exact decode_abs (fun a => .ldx (.mem (.aby a))) (fun _ _ => rfl) rfl
    | exact absurd h.1 Bool.false_ne_true

theorem smb2 (z : Byte) : Statement (.smb2 z) := fun _ _ => decode_two (fun _ => rfl) rfl

theorem tay : Statement .tay := fun _ _ => decode_one (fun _ _ => rfl) rfl

theorem tax : Statement .tax := fun _ _ => decode_one (fun _ _ => rfl) rfl

theorem bbs2 (z rel : Byte) : Statement (.bbs2 z rel) := fun _ _ => decode_three rfl rfl

theorem bcs (rel : Byte) : Statement (.bcs rel) := fun _ _ => decode_two (fun _ => rfl) rfl

theorem smb3 (z : Byte) : Statement (.smb3 z) := fun _ _ => decode_two (fun _ => rfl) rfl

theorem clv : Statement .clv := fun _ _ => decode_one (fun _ _ => rfl) rfl

theorem tsx : Statement .tsx := fun _ _ => decode_one (fun _ _ => rfl) rfl

theorem bbs3 (z rel : Byte) : Statement (.bbs3 z rel) := fun _ _ => decode_three rfl rfl

theorem cpy (src : Source) : Statement (.cpy src) := by
  intro h rest
  rcases src with b | (z | z | z | a | a | a | z | z | z) <;> first
    | exact decode_two (fun _ => rfl) rfl
    | exact decode_abs (fun a => .cpy (.mem (.abs a))) (fun _ _ => rfl) rfl
    | exact absurd h.1 Bool.false_ne_true

theorem cmp (src : Source) : Statement (.cmp src) := by
  intro h rest
  rcases src with b | (z | z | z | a | a | a | z | z | z) <;> first
    | exact decode_two (fun _ => rfl) rfl
    | exact decode_abs (fun a => .cmp (.mem (.abs a))) (fun _ _ => rfl) rfl
    | exact decode_abs (fun a => .cmp (.mem (.abx a))) (fun _ _ => rfl) rfl
    | exact decode_abs (fun a => .cmp (.mem (.aby a))) (fun _ _ => rfl) rfl
    | exact absurd h.1 Bool.false_ne_true

theorem smb4 (z : Byte) : Statement (.smb4 z) := fun _ _ => decode_two (fun _ => rfl) rfl

theorem iny : Statement .iny := fun _ _ => decode_one (fun _ _ => rfl) rfl

theorem dex : Statement .dex := fun _ _ => decode_one (fun _ _ => rfl) rfl

theorem wai : Statement .wai := fun _ _ => decode_one (fun _ _ => rfl) rfl

theorem bbs4 (z rel : Byte) : Statement (.bbs4 z rel) := fun _ _ => decode_three rfl rfl

theorem bne (rel : Byte) : Statement (.bne rel) := fun _ _ => decode_two (fun _ => rfl) rfl

theorem smb5 (z : Byte) : Statement (.smb5 z) := fun _ _ => decode_two (fun _ => rfl) rfl

theorem cld : Statement .cld := fun _ _ => decode_one (fun _ _ => rfl) rfl

theorem phx : Statement .phx := fun _ _ => decode_one (fun _ _ => rfl) rfl

theorem stp : Statement .stp := fun _ _ => decode_one (fun _ _ => rfl) rfl

theorem bbs5 (z rel : Byte) : Statement (.bbs5 z rel) := fun _ _ => decode_three rfl rfl

theorem cpx (src : Source) : Statement (.cpx src) := by
  intro h rest
  rcases src with b | (z | z | z | a | a | a | z | z | z) <;> first
    | exact decode_two (fun _ => rfl) rfl
    | exact decode_abs (fun a => .cpx (.mem (.abs a))) (fun _ _ => rfl) rfl
    | exact absurd h.1 Bool.false_ne_true

theorem sbc (src : Source) : Statement (.sbc src) := by
  intro h rest
  rcases src with b | (z | z | z | a | a | a | z | z | z) <;> first
    | exact decode_two (fun _ => rfl) rfl
    | exact decode_abs (fun a => .sbc (.mem (.abs a))) (fun _ _ => rfl) rfl
    | exact decode_abs (fun a => .sbc (.mem (.abx a))) (fun _ _ => rfl) rfl
    | exact decode_abs (fun a => .sbc (.mem (.aby a))) (fun _ _ => rfl) rfl
    | exact absurd h.1 Bool.false_ne_true

theorem smb6 (z : Byte) : Statement (.smb6 z) := fun _ _ => decode_two (fun _ => rfl) rfl

theorem inx : Statement .inx := fun _ _ => decode_one (fun _ _ => rfl) rfl

theorem nop : Statement .nop := fun _ _ => decode_one (fun _ _ => rfl) rfl

theorem bbs6 (z rel : Byte) : Statement (.bbs6 z rel) := fun _ _ => decode_three rfl rfl

theorem beq (rel : Byte) : Statement (.beq rel) := fun _ _ => decode_two (fun _ => rfl) rfl

theorem smb7 (z : Byte) : Statement (.smb7 z) := fun _ _ => decode_two (fun _ => rfl) rfl

theorem sed : Statement .sed := fun _ _ => decode_one (fun _ _ => rfl) rfl

theorem plx : Statement .plx := fun _ _ => decode_one (fun _ _ => rfl) rfl

theorem bbs7 (z rel : Byte) : Statement (.bbs7 z rel) := fun _ _ => decode_three rfl rfl

end Sys2Proof.Laws.RoundTrip
end

