-- ==== Sys2Proof/Laws/Phases.lean ====
section
/-! SUPPORT. What each phase of the dispatch loop can do, said once, and what a step can do. -/

namespace Sys2Proof.Machine

namespace State

/-! ### The device call -/

/-- A device call replaces bytes of memory, may set the request and uses up one reply; nothing else changes
(rule R123). -/
theorem deviceHandle_eq (s : State) :
    s.deviceHandle = { s with
      mem := s.mem.writes s.nextReply.writes
      interruptPending := s.interruptPending || s.nextReply.asserts
      device := s.device.rest
      deviceCalls := s.deviceCalls + 1 } := rfl

/-- One I/O-synchronization pass: the same with DIRTY cleared (rule R117). -/
theorem deviceSync_eq (s : State) :
    s.deviceSync = { s with
      mem := s.mem.writes s.nextReply.writes
      interruptPending := s.interruptPending || s.nextReply.asserts
      device := s.device.rest
      deviceCalls := s.deviceCalls + 1
      dirty := false } := rfl

/-- A device whose script is used up does nothing. -/
theorem deviceSync_quiet {s : State} (h : s.device = .scripted []) :
    s.deviceSync = { s with dirty := false, deviceCalls := s.deviceCalls + 1 } := by
  cases s
  subst h
  simp [deviceSync, deviceHandle, applyReply, nextReply, DeviceReply.quiet, DeviceSource.rest,
    Memory.writes]

/-- A device call keeps the canonical form of memory. -/
theorem deviceSync_wf {s : State} (h : s.mem.wf) : s.deviceSync.mem.wf := Memory.wf_writes h _

/-! ### FETCH -/

/-- FETCH as one update (rules R101 and R102). -/
theorem fetchPhase_eq (s : State) :
    s.fetchPhase = { s with
      dirty := false
      wait := false
      decodeOffset := 1
      branchDisplacement := 0
      pcAtFetch := s.pc
      currentOpcode := s.mem.read s.pc
      phase := .dispatch
      trace := ⟨s.pc, .read, s.mem.read s.pc⟩ :: s.trace } := by
  simp [fetchPhase, iterationStart, consume, cursorAddr, cursorPosition]

/-- The cursor after FETCH stands on the first operand byte. -/
theorem cursorAddr_fetchPhase (s : State) : s.fetchPhase.cursorAddr = s.pc + 1 := by
  apply BitVec.eq_of_toNat_eq
  simp [fetchPhase_eq, cursorAddr, cursorPosition]

/-- After FETCH the instruction in flight is the one the bytes at pc decode to (rules R85 and R106). -/
theorem instructionInFlight_fetchPhase (s : State) :
    s.fetchPhase.instructionInFlight
      = Decode.instrOf (s.mem.read s.pc) (s.mem.read (s.pc + 1)) (s.mem.read (s.pc + 2)) := by
  rw [instructionInFlight, cursorAddr_fetchPhase, fetchPhase_eq, BitVec.add_assoc]
  rfl

/-! ### INTERRUPT_CHECK -/

/-- INTERRUPT_CHECK that injects (rule R264). -/
theorem interruptCheck_inject {s : State} (hp : s.interruptPending = true) (hi : s.flag .I = false) :
    s.interruptCheck = { s.inject with phase := .fetch } := by
  simp [interruptCheck, hp, hi]

/-- INTERRUPT_CHECK that does not inject (rule R264). -/
theorem interruptCheck_pass {s : State} (h : s.interruptPending = false ∨ s.flag .I = true) :
    s.interruptCheck = { s with phase := .fetch } := by
  rcases h with h | h <;> simp [interruptCheck, h]

@[simp] theorem interruptCheck_phase (s : State) : s.interruptCheck.phase = .fetch := by
  unfold interruptCheck
  split <;> rfl

end State

/-! ### DISPATCH (rule R106) -/

/-- A handler that returned is what a next state comes from. -/
theorem afterDispatch_next {o : Out} {t : State} (h : afterDispatch o = .next t) :
    ∃ u, o = .next u ∧ t = u.afterHandler := by
  cases o with
  | next u => exact ⟨u, rfl, by simpa [afterDispatch] using h.symm⟩
  | fault f => simp [afterDispatch] at h
  | refused r => simp [afterDispatch] at h

/-- All that a handler's `halt` can do (rule R108). -/
theorem State.haltResult_eq (s : State) :
    s.haltResult = { s with phase := if s.currentOpcode = 0xDB#8 then .haltFlush else s.phase } := by
  unfold State.haltResult
  split <;> rfl

/-- All that a handler's `WAIT <- 1` can do (rule R33). -/
theorem State.requestWait_eq (s : State) :
    s.requestWait = { s with wait := s.wait || decide (s.currentOpcode = 0xCB#8) } := by
  unfold State.requestWait
  split <;> simp_all

/-- Under `wrap` the policy adds nothing to a reference handler. -/
theorem State.runReference_wrap (s : State) :
    s.runReference .wrap = exec s.instructionInFlight s := by
  simp [State.runReference, State.consumeUnder_wrap]

/-- A byte outside `mappedSet` is routed to the unmapped no-op. -/
theorem Params.dispatch_unmapped {P : Params} {s : State} (h : P.mappedSet s.currentOpcode = false) :
    P.dispatch s = .next s := by
  simp only [Params.dispatch, h]
  rfl

/-- The spec's default routes to the instruction in flight. -/
theorem Params.dispatch_default (s : State) :
    Params.default.dispatch s = exec s.instructionInFlight s := by
  by_cases h : Config.mapped s.currentOpcode = true
  · simp only [Params.dispatch, Params.default, h, if_true]
    exact State.runReference_wrap s
  · simp only [Params.dispatch, Params.default, h]
    simp [State.instructionInFlight, Decode.instrOf, h]

/-! ### The step -/

theorem stepUnder_fetch (P : Params) {s : State} (h : s.phase = .fetch) :
    stepUnder P s = afterDispatch (P.dispatch s.fetchPhase) := by
  simp [stepUnder, h]

theorem stepUnder_waitPoll (P : Params) {s : State} (h : s.phase = .waitPoll) :
    stepUnder P s = .next s.waitPoll := by
  simp [stepUnder, h]

theorem stepUnder_halted (P : Params) {s : State} (h : s.phase = .halted) :
    stepUnder P s = .fault .halted := by
  simp [stepUnder, h]

/-- What a step that answers a next state has done, by the phase it started in (rule R100). -/
theorem stepUnder_next {P : Params} {s t : State} (h : stepUnder P s = .next t) :
    (s.phase = .fetch ∧ ∃ u, P.dispatch s.fetchPhase = .next u ∧ t = u.afterHandler)
      ∨ (s.phase = .dispatch ∧ ∃ u, P.dispatch s = .next u ∧ t = u.afterHandler)
      ∨ (s.phase = .resolvePc ∧ t = s.fromResolvePc)
      ∨ (s.phase = .ioSync ∧ t = s.fromIoSync)
      ∨ (s.phase = .waitPoll ∧ t = s.waitPoll)
      ∨ (s.phase = .interruptCheck ∧ t = s.interruptCheck)
      ∨ (s.phase = .haltFlush ∧ t = s.haltFlush) := by
  unfold stepUnder at h
  split at h
  · next hp => exact .inl ⟨hp, afterDispatch_next h⟩
  · next hp => exact .inr (.inl ⟨hp, afterDispatch_next h⟩)
  all_goals simp_all

theorem step_fetch {s : State} (h : s.phase = .fetch) :
    step s = afterDispatch (exec s.fetchPhase.instructionInFlight s.fetchPhase) := by
  rw [step, stepUnder_fetch _ h, Params.dispatch_default]

theorem step_waitPoll {s : State} (h : s.phase = .waitPoll) : step s = .next s.waitPoll :=
  stepUnder_waitPoll _ h

theorem step_halted {s : State} (h : s.phase = .halted) : step s = .fault .halted :=
  stepUnder_halted _ h

/-- The same for the spec's default parameters. -/
theorem step_next {s t : State} (h : step s = .next t) :
    (s.phase = .fetch
        ∧ ∃ u, exec s.fetchPhase.instructionInFlight s.fetchPhase = .next u ∧ t = u.afterHandler)
      ∨ (s.phase = .dispatch ∧ ∃ u, exec s.instructionInFlight s = .next u ∧ t = u.afterHandler)
      ∨ (s.phase = .resolvePc ∧ t = s.fromResolvePc)
      ∨ (s.phase = .ioSync ∧ t = s.fromIoSync)
      ∨ (s.phase = .waitPoll ∧ t = s.waitPoll)
      ∨ (s.phase = .interruptCheck ∧ t = s.interruptCheck)
      ∨ (s.phase = .haltFlush ∧ t = s.haltFlush) := by
  simpa only [Params.dispatch_default] using stepUnder_next h

end Sys2Proof.Machine
end

