-- ==== Sys2Proof/Tests/Slice0.lean ====
section
/-! SUPPORT. Tests: the checks of WellFormed, words written from the opcode lists of files 41 to 44, single steps on the
vectors of 95_test_vectors.md, and for every statement with hypotheses a state that meets them. Every expected value is the
spec's; the name of a vector stands in the test's docstring. -/

namespace Sys2Proof.Tests

open Sys2Proof Sys2Proof.Machine Sys2Proof.Claims

/-! ### Well-formed terms -/

/-- Check 1: the map of rule R82 has no STX in mode abx, no TSB in mode zpx, no INC in mode izp and no LDX in mode zpx. -/
theorem test_modeOk_refuses :
    ¬ (Instr.stx (.abx 0x1234)).WellFormed ∧ ¬ (Instr.tsb (.zpx 0x12)).WellFormed
      ∧ ¬ (Instr.inc (.mem (.izp 0x12))).WellFormed ∧ ¬ (Instr.ldx (.mem (.zpx 0x12))).WellFormed := by
  decide

/-- Check 2: 0x69 is in the mapped set of rule R83. -/
theorem test_unmappedOk_refuses : ¬ (Instr.unmapped 0x69).WellFormed := by decide

theorem test_wellFormed_accepts :
    (Instr.stx (.zpy 0x12)).WellFormed ∧ (Instr.unmapped 0x5C).WellFormed
      ∧ (Instr.jmp (.iax 0x3000)).WellFormed := by
  decide

/-! ### Decoding: words from the opcode lists of the instructions' own rules -/

/-- Rules R141 to R146. -/
theorem test_decode_arith :
    decode [0x69, 0x12] = .ok (.adc (.imm 0x12)) []
      ∧ decode [0x7D, 0x34, 0x12] = .ok (.adc (.mem (.abx 0x1234))) []
      ∧ decode [0xF2, 0x40] = .ok (.sbc (.mem (.izp 0x40))) []
      ∧ decode [0xD9, 0x34, 0x12] = .ok (.cmp (.mem (.aby 0x1234))) []
      ∧ decode [0xE4, 0x40] = .ok (.cpx (.mem (.zp 0x40))) []
      ∧ decode [0xCC, 0x34, 0x12] = .ok (.cpy (.mem (.abs 0x1234))) [] := by
  decide

/-- Rules R147 to R150, R238 and R239. -/
theorem test_decode_modify :
    decode [0x0A] = .ok (.asl .acc) [] ∧ decode [0x56, 0x40] = .ok (.lsr (.mem (.zpx 0x40))) []
      ∧ decode [0x2E, 0x34, 0x12] = .ok (.rol (.mem (.abs 0x1234))) []
      ∧ decode [0x7E, 0x34, 0x12] = .ok (.ror (.mem (.abx 0x1234))) []
      ∧ decode [0x1A] = .ok (.inc .acc) [] ∧ decode [0xC6, 0x40] = .ok (.dec (.mem (.zp 0x40))) [] := by
  decide

/-- Rules R171 to R177. -/
theorem test_decode_load_store :
    decode [0xA1, 0x40] = .ok (.lda (.mem (.izx 0x40))) []
      ∧ decode [0xB6, 0xF0] = .ok (.ldx (.mem (.zpy 0xF0))) []
      ∧ decode [0xA0, 0x12] = .ok (.ldy (.imm 0x12)) [] ∧ decode [0x91, 0x40] = .ok (.sta (.izy 0x40)) []
      ∧ decode [0x96, 0x40] = .ok (.stx (.zpy 0x40)) [] ∧ decode [0x94, 0x40] = .ok (.sty (.zpx 0x40)) []
      ∧ decode [0x9C, 0x34, 0x12] = .ok (.stz (.abs 0x1234)) []
      ∧ decode [0x9E, 0x34, 0x12] = .ok (.stz (.abx 0x1234)) [] := by
  decide

/-- Rules R178 to R191. -/
theorem test_decode_stack_transfer :
    decode [0x48] = .ok .pha [] ∧ decode [0x08] = .ok .php [] ∧ decode [0xDA] = .ok .phx []
      ∧ decode [0x5A] = .ok .phy [] ∧ decode [0x68] = .ok .pla [] ∧ decode [0x28] = .ok .plp []
      ∧ decode [0xFA] = .ok .plx [] ∧ decode [0x7A] = .ok .ply [] ∧ decode [0xAA] = .ok .tax []
      ∧ decode [0xA8] = .ok .tay [] ∧ decode [0xBA] = .ok .tsx [] ∧ decode [0x8A] = .ok .txa []
      ∧ decode [0x9A] = .ok .txs [] ∧ decode [0x98] = .ok .tya [] := by
  decide

/-- Rules R201 to R206. -/
theorem test_decode_logical :
    decode [0x32, 0x40] = .ok (.and (.mem (.izp 0x40))) []
      ∧ decode [0x51, 0x40] = .ok (.eor (.mem (.izy 0x40))) []
      ∧ decode [0x09, 0x12] = .ok (.ora (.imm 0x12)) [] ∧ decode [0x89, 0xC0] = .ok (.bit (.imm 0xC0)) []
      ∧ decode [0x3C, 0x34, 0x12] = .ok (.bit (.mem (.abx 0x1234))) []
      ∧ decode [0x04, 0x40] = .ok (.tsb (.zp 0x40)) []
      ∧ decode [0x1C, 0x34, 0x12] = .ok (.trb (.abs 0x1234)) [] := by
  decide

/-- Rules R207 and R208: RMBn is (n << 4) | 0x07 and SMBn is 0x80 | (n << 4) | 0x07. -/
theorem test_decode_memory_bits :
    decode [0x07, 0x10] = .ok (.rmb0 0x10) [] ∧ decode [0x17, 0x10] = .ok (.rmb1 0x10) []
      ∧ decode [0x27, 0x10] = .ok (.rmb2 0x10) [] ∧ decode [0x37, 0x10] = .ok (.rmb3 0x10) []
      ∧ decode [0x47, 0x10] = .ok (.rmb4 0x10) [] ∧ decode [0x57, 0x10] = .ok (.rmb5 0x10) []
      ∧ decode [0x67, 0x10] = .ok (.rmb6 0x10) [] ∧ decode [0x77, 0x10] = .ok (.rmb7 0x10) []
      ∧ decode [0x87, 0x10] = .ok (.smb0 0x10) [] ∧ decode [0x97, 0x10] = .ok (.smb1 0x10) []
      ∧ decode [0xA7, 0x10] = .ok (.smb2 0x10) [] ∧ decode [0xB7, 0x10] = .ok (.smb3 0x10) []
      ∧ decode [0xC7, 0x10] = .ok (.smb4 0x10) [] ∧ decode [0xD7, 0x10] = .ok (.smb5 0x10) []
      ∧ decode [0xE7, 0x10] = .ok (.smb6 0x10) [] ∧ decode [0xF7, 0x10] = .ok (.smb7 0x10) [] := by
  decide

/-- Rules R210 to R218. -/
theorem test_decode_branches :
    decode [0x10, 0xFD] = .ok (.bpl 0xFD) [] ∧ decode [0x30, 0xFD] = .ok (.bmi 0xFD) []
      ∧ decode [0x50, 0xFD] = .ok (.bvc 0xFD) [] ∧ decode [0x70, 0xFD] = .ok (.bvs 0xFD) []
      ∧ decode [0x90, 0xFD] = .ok (.bcc 0xFD) [] ∧ decode [0xB0, 0xFD] = .ok (.bcs 0xFD) []
      ∧ decode [0xD0, 0xFD] = .ok (.bne 0xFD) [] ∧ decode [0xF0, 0xFD] = .ok (.beq 0xFD) []
      ∧ decode [0x80, 0xFD] = .ok (.bra 0xFD) [] := by
  decide

/-- Rules R219 and R220: BBRn is (n << 4) | 0x0F and BBSn is 0x80 | (n << 4) | 0x0F; the zero-page byte comes first. -/
theorem test_decode_bit_branches :
    decode [0x0F, 0x10, 0xFD] = .ok (.bbr0 0x10 0xFD) [] ∧ decode [0x1F, 0x10, 0xFD] = .ok (.bbr1 0x10 0xFD) []
      ∧ decode [0x2F, 0x10, 0xFD] = .ok (.bbr2 0x10 0xFD) [] ∧ decode [0x3F, 0x10, 0xFD] = .ok (.bbr3 0x10 0xFD) []
      ∧ decode [0x4F, 0x10, 0xFD] = .ok (.bbr4 0x10 0xFD) [] ∧ decode [0x5F, 0x10, 0xFD] = .ok (.bbr5 0x10 0xFD) []
      ∧ decode [0x6F, 0x10, 0xFD] = .ok (.bbr6 0x10 0xFD) [] ∧ decode [0x7F, 0x10, 0xFD] = .ok (.bbr7 0x10 0xFD) []
      ∧ decode [0x8F, 0x10, 0xFD] = .ok (.bbs0 0x10 0xFD) [] ∧ decode [0x9F, 0x10, 0xFD] = .ok (.bbs1 0x10 0xFD) []
      ∧ decode [0xAF, 0x10, 0xFD] = .ok (.bbs2 0x10 0xFD) [] ∧ decode [0xBF, 0x10, 0xFD] = .ok (.bbs3 0x10 0xFD) []
      ∧ decode [0xCF, 0x10, 0xFD] = .ok (.bbs4 0x10 0xFD) [] ∧ decode [0xDF, 0x10, 0xFD] = .ok (.bbs5 0x10 0xFD) []
      ∧ decode [0xEF, 0x10, 0xFD] = .ok (.bbs6 0x10 0xFD) []
      ∧ decode [0xFF, 0x10, 0xFD] = .ok (.bbs7 0x10 0xFD) [] := by
  decide

/-- Rules R221 to R223 and R244 to R249. -/
theorem test_decode_jumps_control :
    decode [0x4C, 0x34, 0x12] = .ok (.jmp (.abs 0x1234)) [] ∧ decode [0x6C, 0xFF, 0x10] = .ok (.jmp (.ind 0x10FF)) []
      ∧ decode [0x7C, 0x00, 0x30] = .ok (.jmp (.iax 0x3000)) [] ∧ decode [0x20, 0x10, 0x03] = .ok (.jsr 0x0310) []
      ∧ decode [0x60] = .ok .rts [] ∧ decode [0x00, 0xEE, 0xEA] = .ok (.brk 0xEE) [0xEA]
      ∧ decode [0x40] = .ok .rti [] ∧ decode [0xCB] = .ok .wai [] ∧ decode [0xDB] = .ok .stp []
      ∧ decode [0xEA] = .ok .nop [] ∧ decode [0x5C, 0x34] = .ok (.unmapped 0x5C) [0x34] := by
  decide

/-- Rules R231 to R237 and R240 to R243. -/
theorem test_decode_flags_index :
    decode [0x18] = .ok .clc [] ∧ decode [0x38] = .ok .sec [] ∧ decode [0x58] = .ok .cli []
      ∧ decode [0x78] = .ok .sei [] ∧ decode [0xD8] = .ok .cld [] ∧ decode [0xF8] = .ok .sed []
      ∧ decode [0xB8] = .ok .clv [] ∧ decode [0xE8] = .ok .inx [] ∧ decode [0xC8] = .ok .iny []
      ∧ decode [0xCA] = .ok .dex [] ∧ decode [0x88] = .ok .dey [] := by
  decide

/-- Only missing bytes are rejected (rules R77 and R84). -/
theorem test_decode_rejects :
    decode [] = .rejected .noOpcode ∧ decode [0x69] = .rejected (.truncated 0x69)
      ∧ decode [0x4C, 0x00] = .rejected (.truncated 0x4C) := by
  decide

/-- The opcode table's numbering: the operand bytes come after the opcode byte and are zero. -/
theorem test_decode_table_word :
    decodeTableWord 8 0x69 = some (.adc (.imm 0x00)) ∧ decodeTableWord 24 0x12344C = some (.jmp (.abs 0x1234)) := by
  decide

/-! ### Single steps -/

/-- A state that is about to fetch `bytes` at `pc`, with SP at 0xFF and everything else as at reset. -/
def cpu (pc : Addr) (bytes : List Byte) : State :=
  { State.reset with pc := pc, sp := 0xFF, mem := State.placeBytes bytes pc [] }

/-- One more byte of memory. -/
def poke (a : Addr) (v : Byte) (s : State) : State := { s with mem := s.mem.write a v }

/-- The next state, where there is one. -/
def nextState : Out → Option State
  | .next t => some t
  | .fault _ => none
  | .refused _ => none

/-- What a step leaves. -/
def result (s : State) : Option State := nextState (step s)

/-- Some fields of what a step leaves. -/
def seen {β : Type} (s : State) (f : State → β) : Option β := (result s).map f

/-- Some fields of what a step under other parameters leaves. -/
def seenUnder {β : Type} (P : Params) (s : State) (f : State → β) : Option β :=
  (nextState (stepUnder P s)).map f

/-- The records of a step, oldest first. -/
def records (s : State) : Option (List TraceRecord) := seen s fun t => t.trace.reverse

/-- Scenario A and F-16: NOP. -/
theorem test_nop :
    seen (cpu 0x0000 [0xEA]) (fun t => (t.pc, t.p, t.mem, t.trace))
      = some (0x0001, 0x00, [(0, 0xEA)], [⟨0x0000, .read, 0xEA⟩]) := by decide

/-- P2 and F-17: an unmapped byte advances pc by 1 only. -/
theorem test_unmapped :
    seen (cpu 0x1000 [0x5C, 0x34, 0x12]) (fun t => (t.pc, t.trace, t.deviceCalls, t.dirty))
      = some (0x1001, [⟨0x1000, .read, 0x5C⟩], 1, false) := by decide

/-- A-1: signed overflow out of 0x7F. -/
theorem test_adc_overflow :
    seen { cpu 0x0200 [0x69, 0x01] with a := 0x7F }
      (fun t => (t.a, t.flag .N, t.flag .V, t.flag .Z, t.flag .C))
      = some (0x80, true, true, false, false) := by decide

/-- A-9: 58 + 46 + 1 = 105. -/
theorem test_adc_decimal :
    Alu.decimalAddValue 0 0x58 0x46 true = (0x05, true)
      ∧ seen { cpu 0x0200 [0x69, 0x46] with a := 0x58, p := 0x09 } (fun t => (t.a, t.draws)) = some (0x05, 1) := by
  decide

/-- A-5: no signed overflow although a borrow. -/
theorem test_sbc_borrow :
    seen { cpu 0x0200 [0xE9, 0xF0] with a := 0x50, p := 0x01 } (fun t => (t.a, t.flag .C, t.flag .V))
      = some (0x60, false, false) := by decide

/-- A-12: 0 - 0 - 1 borrow is 99. -/
theorem test_sbc_decimal :
    Alu.decimalSubValue 0 0x00 0x00 false = (0x99, false)
      ∧ seen { cpu 0x0200 [0xE9, 0x00] with p := 0x08 } (fun t => t.a) = some 0x99 := by
  decide

/-- A-16: N is bit 7 of 0x00 - 0x80. -/
theorem test_cmp :
    seen (cpu 0x0200 [0xC9, 0x80]) (fun t => (t.a, t.flag .C, t.flag .Z, t.flag .N))
      = some (0x00, false, false, true) := by decide

/-- A-17 and A-18. -/
theorem test_cpx_cpy :
    seen { cpu 0x0200 [0xE0, 0x05] with x := 0x05 } (fun t => (t.flag .Z, t.flag .C)) = some (true, true)
      ∧ seen { cpu 0x0200 [0xC0, 0x20] with y := 0x10 } (fun t => (t.flag .C, t.flag .N))
        = some (false, true) := by
  decide

/-- A-19 to A-22. -/
theorem test_shifts_acc :
    seen { cpu 0x0200 [0x0A] with a := 0x80 } (fun t => (t.a, t.p)) = some (0x00, 0x03)
      ∧ seen { cpu 0x0200 [0x4A] with a := 0x01 } (fun t => (t.a, t.p)) = some (0x00, 0x03)
      ∧ seen { cpu 0x0200 [0x2A] with a := 0x80 } (fun t => (t.a, t.p)) = some (0x00, 0x03)
      ∧ seen { cpu 0x0200 [0x6A] with a := 0x01 } (fun t => (t.a, t.p)) = some (0x00, 0x03) := by
  decide

/-- A-23: one read, one write; DIRTY is set until the device call. -/
theorem test_lsr_memory :
    records (poke 0x10 0x03 (cpu 0x0200 [0x46, 0x10]))
      = some [⟨0x0200, .read, 0x46⟩, ⟨0x0201, .read, 0x10⟩, ⟨0x0010, .read, 0x03⟩, ⟨0x0010, .write, 0x01⟩] := by
  decide

/-- L-1 to L-3: the zero-page index wraps. -/
theorem test_loads :
    seen (cpu 0x0200 [0xA9, 0x00]) (fun t => (t.a, t.p)) = some (0x00, 0x02)
      ∧ seen (cpu 0x0200 [0xA2, 0x80]) (fun t => (t.x, t.p)) = some (0x80, 0x80)
      ∧ seen { poke 0x0F 0x66 (cpu 0x0200 [0xB4, 0xFF]) with x := 0x10 } (fun t => t.y) = some 0x66 := by
  decide

/-- E-6 and E-8: indexing wraps mod 2^16, and Y is added to the pointer's value. -/
theorem test_load_indexed :
    seen { poke 0x0000 0x77 (cpu 0x0200 [0xBD, 0xFF, 0xFF]) with x := 0x01 } (fun t => t.a) = some 0x77
      ∧ seen { poke 0x1310 0x55 (poke 0x41 0x12 (poke 0x40 0xF0 (cpu 0x0200 [0xB1, 0x40]))) with y := 0x20 }
        (fun t => t.a) = some 0x55 := by
  decide

/-- M-7: the pointer's high byte is read at 0x0000. -/
theorem test_pointer_wraps :
    records (poke 0x0000 0x30 (poke 0xFF 0x00 (cpu 0x0200 [0xA1, 0xFF])))
      = some [⟨0x0200, .read, 0xA1⟩, ⟨0x0201, .read, 0xFF⟩, ⟨0x00FF, .read, 0x00⟩, ⟨0x0000, .read, 0x30⟩,
        ⟨0x3000, .read, 0x00⟩] := by decide

/-- Scenario B and L-5. -/
theorem test_sta_stz :
    records { cpu 0x0200 [0x85, 0x10] with a := 0x42 }
        = some [⟨0x0200, .read, 0x85⟩, ⟨0x0201, .read, 0x10⟩, ⟨0x0010, .write, 0x42⟩]
      ∧ seen (poke 0x1234 0xFF (cpu 0x0200 [0x9C, 0x34, 0x12])) (fun t => (t.mem.read 0x1234, t.pc))
        = some (0x00, 0x0203) := by
  decide

/-- Rules R175 and R176. -/
theorem test_stx_sty :
    seen { cpu 0x0200 [0x86, 0x10] with x := 0x42 } (fun t => (t.mem.read 0x10, t.p)) = some (0x42, 0x00)
      ∧ seen { cpu 0x0200 [0x84, 0x10] with y := 0x43 } (fun t => (t.mem.read 0x10, t.p)) = some (0x43, 0x00) := by
  decide

/-- M-1 and L-6: the stack wraps within its page; PHP pushes B and U set. -/
theorem test_pushes :
    seen { cpu 0x0200 [0x48] with a := 0x5A, sp := 0x00 } (fun t => (t.mem.read 0x0100, t.sp)) = some (0x5A, 0xFF)
      ∧ seen { cpu 0x0200 [0x08] with p := 0x01 } (fun t => (t.mem.read 0x01FF, t.p, t.sp))
        = some (0x31, 0x01, 0xFE)
      ∧ seen { cpu 0x0200 [0xDA] with x := 0x5B } (fun t => t.mem.read 0x01FF) = some 0x5B
      ∧ seen { cpu 0x0200 [0x5A] with y := 0x5C } (fun t => t.mem.read 0x01FF) = some 0x5C := by
  decide

/-- M-2, L-7 and L-8. -/
theorem test_pulls :
    seen (poke 0x0100 0x77 (cpu 0x0200 [0x68])) (fun t => (t.a, t.sp, t.p)) = some (0x77, 0x00, 0x00)
      ∧ seen { poke 0x01FF 0xFF (cpu 0x0200 [0x28]) with sp := 0xFE } (fun t => (t.p, t.sp)) = some (0xFF, 0xFF)
      ∧ seen { poke 0x01FF 0x80 (cpu 0x0200 [0xFA]) with sp := 0xFE } (fun t => (t.x, t.p)) = some (0x80, 0x80)
      ∧ seen { poke 0x01FF 0x80 (cpu 0x0200 [0x7A]) with sp := 0xFE } (fun t => (t.y, t.p)) = some (0x80, 0x80) := by
  decide

/-- L-9 to L-11, and rules R186, R189 and R191: source and destination are not swapped. -/
theorem test_transfers :
    seen { cpu 0x0200 [0x9A] with x := 0x00, p := 0x80 } (fun t => (t.sp, t.p)) = some (0x00, 0x80)
      ∧ seen { cpu 0x0200 [0xBA] with sp := 0x00, x := 0x11 } (fun t => (t.x, t.p)) = some (0x00, 0x02)
      ∧ seen { cpu 0x0200 [0xA8] with a := 0xFF } (fun t => (t.y, t.p)) = some (0xFF, 0x80)
      ∧ seen { cpu 0x0200 [0xAA] with a := 0xFF } (fun t => (t.x, t.y, t.p)) = some (0xFF, 0x00, 0x80)
      ∧ seen { cpu 0x0200 [0x8A] with x := 0x41 } (fun t => (t.a, t.p)) = some (0x41, 0x00)
      ∧ seen { cpu 0x0200 [0x98] with y := 0x42 } (fun t => (t.a, t.p)) = some (0x42, 0x00) := by
  decide

/-- B-1 to B-3. -/
theorem test_logical :
    seen { cpu 0x0200 [0x29, 0x0F] with a := 0xF0 } (fun t => (t.a, t.p)) = some (0x00, 0x02)
      ∧ seen { cpu 0x0200 [0x49, 0xAA] with a := 0xAA } (fun t => (t.a, t.p)) = some (0x00, 0x02)
      ∧ seen (cpu 0x0200 [0x09, 0x00]) (fun t => (t.a, t.p)) = some (0x00, 0x02) := by
  decide

/-- B-4 and B-5: an immediate leaves N and V. -/
theorem test_bit :
    seen (cpu 0x0200 [0x89, 0xC0]) (fun t => t.p) = some 0x02
      ∧ seen { poke 0x10 0x40 (cpu 0x0200 [0x24, 0x10]) with a := 0xFF } (fun t => t.p) = some 0x40 := by
  decide

/-- B-6 and B-7. -/
theorem test_tsb_trb :
    seen { poke 0x20 0xF0 (cpu 0x0200 [0x04, 0x20]) with a := 0x0F } (fun t => (t.mem.read 0x20, t.flag .Z))
        = some (0xFF, true)
      ∧ seen { poke 0x20 0xFF (cpu 0x0200 [0x14, 0x20]) with a := 0x0F } (fun t => (t.mem.read 0x20, t.flag .Z))
        = some (0xF0, false) := by
  decide

/-- B-8 and B-9. -/
theorem test_rmb_smb :
    seen (poke 0x10 0xFF (cpu 0x0200 [0x37, 0x10])) (fun t => (t.mem.read 0x10, t.p)) = some (0xF7, 0x00)
      ∧ seen (cpu 0x0200 [0xD7, 0x10]) (fun t => (t.mem.read 0x10, t.p)) = some (0x20, 0x00) := by
  decide

/-- B-12, B-13 and B-15: the displacement is signed and pc wraps. -/
theorem test_branches_taken :
    seen { cpu 0x0200 [0x30, 0x80] with p := 0x80 } (fun t => t.pc) = some 0x0182
      ∧ seen (cpu 0x0000 [0x80, 0xFD]) (fun t => t.pc) = some 0xFFFF
      ∧ seen (cpu 0xFFF0 [0x90, 0x20]) (fun t => t.pc) = some 0x0012
      ∧ seen (cpu 0x0300 [0x80, 0xFE]) (fun t => t.pc) = some 0x0300 := by
  decide

/-- P3's pair for BNE, and the other conditions by rules R210 to R217: with all four flags set, BMI, BVS, BCS and
BEQ are taken and BPL, BVC, BCC and BNE are not. -/
theorem test_branch_conditions :
    ([0x30, 0x70, 0xB0, 0xF0].map fun op : Byte =>
        seen { cpu 0x0200 [op, 0x10] with p := 0xC3 } (fun t => t.pc)) = List.replicate 4 (some 0x0212)
      ∧ ([0x10, 0x50, 0x90, 0xD0].map fun op : Byte =>
        seen { cpu 0x0200 [op, 0x10] with p := 0xC3 } (fun t => t.pc)) = List.replicate 4 (some 0x0202) := by
  decide

/-- B-10 and B-11. -/
theorem test_bbr_bbs :
    seen (poke 0x10 0x01 (cpu 0x0200 [0x0F, 0x10, 0x05])) (fun t => t.pc) = some 0x0203
      ∧ seen (poke 0x10 0x80 (cpu 0x0200 [0xFF, 0x10, 0xFD])) (fun t => t.pc) = some 0x0200 := by
  decide

/-- Rule R219: both operand bytes before the zero-page read. -/
theorem test_bbr_records :
    records (poke 0x10 0x01 (cpu 0x0200 [0x0F, 0x10, 0x05]))
      = some [⟨0x0200, .read, 0x0F⟩, ⟨0x0201, .read, 0x10⟩, ⟨0x0202, .read, 0x05⟩, ⟨0x0010, .read, 0x01⟩] := by
  decide

/-- M-8 and E-11: no page-boundary defect; X is added before the pointer is read. -/
theorem test_jmp_indirect :
    seen (poke 0x1000 0x30 (poke 0x1100 0x20 (cpu 0x0200 [0x6C, 0xFF, 0x10]))) (fun t => t.pc) = some 0x2000
      ∧ seen { poke 0x3005 0x90 (cpu 0x0200 [0x7C, 0x00, 0x30]) with x := 0x04 } (fun t => t.pc)
        = some 0x9000 := by
  decide

/-- P3, B-16 and D-5: a jump to itself falls through; an operand byte past 0xFFFF is read at 0x0000. -/
theorem test_jmp_absolute :
    seen (cpu 0x0200 [0x4C, 0x34, 0x12]) (fun t => t.pc) = some 0x1234
      ∧ seen (cpu 0x0500 [0x4C, 0x00, 0x05]) (fun t => t.pc) = some 0x0503
      ∧ seen (cpu 0xFFFE [0x4C, 0x00, 0x10]) (fun t => t.pc) = some 0x1000 := by
  decide

/-- B-17 and B-19. -/
theorem test_jsr :
    seen (cpu 0x0304 [0x20, 0x10, 0x03]) (fun t => (t.pc, t.sp, t.mem.read 0x01FF, t.mem.read 0x01FE))
        = some (0x0310, 0xFD, 0x03, 0x06)
      ∧ seen (cpu 0x0400 [0x20, 0x00, 0x04]) (fun t => t.pc) = some 0x0403 := by
  decide

/-- Rule R222: both operand bytes before the pushes, high byte first. -/
theorem test_jsr_records :
    records (cpu 0x0304 [0x20, 0x10, 0x03])
      = some [⟨0x0304, .read, 0x20⟩, ⟨0x0305, .read, 0x10⟩, ⟨0x0306, .read, 0x03⟩, ⟨0x01FF, .write, 0x03⟩,
        ⟨0x01FE, .write, 0x06⟩] := by decide

/-- B-18 and D-8. -/
theorem test_rts :
    seen { poke 0x01FF 0x03 (poke 0x01FE 0x06 (cpu 0x0312 [0x60])) with sp := 0xFD } (fun t => (t.pc, t.sp))
        = some (0x0307, 0xFF)
      ∧ seen { poke 0x01FF 0x05 (poke 0x01FE 0xFF (cpu 0x0600 [0x60])) with sp := 0xFD } (fun t => t.pc)
        = some 0x0601 := by
  decide

/-- F-1 and F-2, each flag alone. -/
theorem test_flag_instructions :
    ([0x18, 0x58, 0xD8, 0xB8].map fun op : Byte => seen { cpu 0x0200 [op] with p := 0xFF } (fun t => t.p))
        = [some 0xFE, some 0xFB, some 0xF7, some 0xBF]
      ∧ ([0x38, 0x78, 0xF8].map fun op : Byte => seen (cpu 0x0200 [op]) (fun t => t.p))
        = [some 0x01, some 0x04, some 0x08] := by
  decide

/-- F-3 and F-4. -/
theorem test_inc_dec :
    seen (poke 0x10 0xFF (cpu 0x0200 [0xE6, 0x10])) (fun t => (t.mem.read 0x10, t.p)) = some (0x00, 0x02)
      ∧ seen (cpu 0x0200 [0x3A]) (fun t => (t.a, t.p)) = some (0xFF, 0x80) := by
  decide

/-- F-5 and F-6, and their mirror images (rules R241 and R242). -/
theorem test_index_inc_dec :
    seen { cpu 0x0200 [0xE8] with x := 0xFF } (fun t => (t.x, t.p)) = some (0x00, 0x02)
      ∧ seen (cpu 0x0200 [0x88]) (fun t => (t.y, t.p)) = some (0xFF, 0x80)
      ∧ seen { cpu 0x0200 [0xC8] with y := 0xFF } (fun t => (t.y, t.p)) = some (0x00, 0x02)
      ∧ seen (cpu 0x0200 [0xCA]) (fun t => (t.x, t.p)) = some (0xFF, 0x80) := by
  decide

/-- F-9. -/
theorem test_brk :
    seen { poke 0xFFFF 0x80 (cpu 0x0600 [0x00, 0xEE]) with p := 0x08 }
      (fun t => (t.mem.read 0x01FF, t.mem.read 0x01FE, t.mem.read 0x01FD, t.sp, t.p, t.pc))
      = some (0x06, 0x02, 0x38, 0xFC, 0x04, 0x8000) := by decide

/-- F-10: BRK to itself. -/
theorem test_brk_self :
    seen (poke 0xFFFF 0x06 (cpu 0x0600 [0x00, 0xEE])) (fun t => t.pc) = some 0x0602 := by decide

/-- F-11 and D-9. -/
theorem test_rti :
    seen { poke 0x01FF 0x04 (poke 0x01FE 0x02 (poke 0x01FD 0x04 (cpu 0x0700 [0x40])))
        with sp := 0xFC, interruptPending := true }
        (fun t => (t.p, t.pc, t.sp, t.interruptPending)) = some (0x04, 0x0402, 0xFF, true)
      ∧ seen { poke 0x01FF 0x07 (poke 0x01FE 0x00 (cpu 0x0700 [0x40])) with sp := 0xFC } (fun t => (t.pc, t.p))
        = some (0x0701, 0x00) := by
  decide

/-- P6: WAI and its first poll. The step ends in WAIT_POLL after one device call, with nothing fetched. -/
theorem test_wai_waits :
    seen (cpu 0x0401 [0xCB]) (fun t => (t.phase, t.pc, t.deviceCalls, t.trace))
      = some (.waitPoll, 0x0402, 1, [⟨0x0401, .read, 0xCB⟩]) := by decide

/-- F-13: a request already pending ends the wait at once. -/
theorem test_wai_pending :
    seen { poke 0xFFFF 0x80 (cpu 0x0401 [0xCB]) with interruptPending := true }
      (fun t => (t.phase, t.deviceCalls, t.pc, t.mem.read 0x01FF, t.mem.read 0x01FE))
      = some (.fetch, 1, 0x8000, 0x04, 0x02) := by decide

/-- F-12: a poll that the request ends, with I set: no injection. -/
theorem test_poll_ends :
    seen { State.reset with
        pc := 0x0402, p := 0x04, wait := true, phase := .waitPoll, device := .scripted [⟨[], true⟩] }
      (fun t => (t.phase, t.pc, t.interruptPending, t.deviceCalls)) = some (.fetch, 0x0402, true, 1) := by decide

/-- P7 and F-15: STP. -/
theorem test_stp :
    seen { cpu 0x0205 [0xDB] with interruptPending := true }
      (fun t => (t.phase, t.deviceCalls, t.trace, t.interruptPending, t.sp))
      = some (.halted, 1, [⟨0x0205, .read, 0xDB⟩], true, 0xFF) := by decide

/-- F-7: CLI injects at its own boundary. -/
theorem test_cli_injects :
    seen { poke 0xFFFF 0x80 (cpu 0x0400 [0x58]) with p := 0x04, interruptPending := true }
      (fun t => (t.pc, t.p, t.mem.read 0x01FF, t.mem.read 0x01FE, t.mem.read 0x01FD, t.interruptPending))
      = some (0x8000, 0x04, 0x04, 0x01, 0x00, false) := by decide

/-- P5: injection in full. -/
theorem test_injection :
    (poke 0xFFFE 0x34 (poke 0xFFFF 0x12
        { State.reset with pc := 0xABCD, sp := 0x80, p := 0xC3, interruptPending := true })).interruptCheck.trace.reverse
      = [⟨0x0180, .write, 0xAB⟩, ⟨0x017F, .write, 0xCD⟩, ⟨0x017E, .write, 0xC3⟩, ⟨0xFFFE, .read, 0x34⟩,
        ⟨0xFFFF, .read, 0x12⟩] := by decide

/-- M-3: injection across the wrap of the stack. -/
theorem test_injection_wraps :
    ((fun t : State => (t.mem.read 0x0101, t.mem.read 0x0100, t.mem.read 0x01FF, t.sp, t.pc, t.p))
        (poke 0xFFFF 0x80 { State.reset with pc := 0x1234, sp := 0x01, interruptPending := true }).interruptCheck)
      = (0x12, 0x34, 0x00, 0xFE, 0x8000, 0x04) := by decide

/-- M-5: a device's write makes no record and does not set DIRTY. -/
theorem test_device_write :
    seen { cpu 0x0200 [0xEA] with device := .scripted [⟨[(0x3000, 0x99)], false⟩] }
      (fun t => (t.mem.read 0x3000, t.dirty, t.trace)) = some (0x99, false, [⟨0x0200, .read, 0xEA⟩]) := by decide

/-- D-2: an operand byte across the top under `wrap`. -/
theorem test_cursor_wrap :
    seen (cpu 0xFFFF [0xA9, 0x05]) (fun t => (t.a, t.pc, t.trace.reverse))
      = some (0x05, 0x0001, [⟨0xFFFF, .read, 0xA9⟩, ⟨0x0000, .read, 0x05⟩]) := by decide

/-- The spec's defaults with the policy `fault` (rule R8). -/
def faulting : Params := { Params.default with cursorTopPolicy := .fault }

/-- D-3: the same step under `fault`; an instruction that ends at 0xFFFF runs (rule R105). -/
theorem test_cursor_fault :
    stepUnder faulting (cpu 0xFFFF [0xA9, 0x05]) = .fault (.cursorBeyondTop 0xFFFF 1)
      ∧ seenUnder faulting (cpu 0xFFFE [0xA9, 0x05]) (fun t => t.a) = some 0x05 :=
  ⟨rfl, by decide⟩

/-- Decision D1's Rockwell part: WAI's byte outside `mappedSet` is the no-op of rule R249. -/
theorem test_mapped_set :
    seenUnder { Params.default with mappedSet := fun op => Config.mapped op && op != 0xCB && op != 0xDB }
      (cpu 0x0401 [0xCB]) (fun t => (t.phase, t.pc, t.wait)) = some (.fetch, 0x0402, false) := by decide

/-- A machine whose byte 0xEA is mapped to another handler. -/
def withHandler (body : HandlerProgram) : Params :=
  { Params.default with handlers := fun op => if op = 0xEA then .program body else .reference }

/-- D-6's handler, pc and displacement both written, through a whole step (rule R116); and a handler that reads one
operand byte and stores it (rules R104, R112 and R110). -/
theorem test_handler_program :
    seenUnder (withHandler (.setPc 0x2000 (.setBranchDisplacement (-2) .done))) (cpu 0x0400 [0xEA])
        (fun t => t.pc) = some 0x1FFE
      ∧ seenUnder (withHandler (.fetch fun v => .memWrite 0x0010 v .done)) (cpu 0x0400 [0xEA, 0x5A])
        (fun t => (t.pc, t.trace.reverse))
        = some (0x0402, [⟨0x0400, .read, 0xEA⟩, ⟨0x0401, .read, 0x5A⟩, ⟨0x0010, .write, 0x5A⟩]) := by
  decide

/-- Rule R33: a `WAIT <- 1` is WAI's alone. -/
theorem test_handler_wait :
    seenUnder (withHandler (.setWait .done)) (cpu 0x0400 [0xEA]) (fun t => (t.phase, t.wait))
        = some (.fetch, false)
      ∧ seenUnder { Params.default with handlers := fun _ => .program (.setWait .done) } (cpu 0x0401 [0xCB])
        (fun t => (t.phase, t.wait)) = some (.waitPoll, true) := by
  decide

/-- Rule R108: a `halt` is STP's alone. -/
theorem test_handler_halt :
    seenUnder (withHandler .halt) (cpu 0x0400 [0xEA]) (fun t => (t.phase, t.pc)) = some (.fetch, 0x0401)
      ∧ seenUnder { Params.default with handlers := fun _ => .program .halt } (cpu 0x0400 [0xDB])
        (fun t => t.phase) = some .halted := by
  decide

/-- D-6 and D-7: RESOLVE_PC composes an absolute target and a displacement. -/
theorem test_resolve_composes :
    ({ State.reset with pc := 0x2000, branchDisplacement := -2, decodeOffset := 3 } : State).resolvePc.pc = 0x1FFE
      ∧ ({ State.reset with pc := 0x0400, pcAtFetch := 0x0400, branchDisplacement := 5, decodeOffset := 3 }
        : State).resolvePc.pc = 0x0408 := by
  decide

/-- P1: trace lines. -/
theorem test_trace_lines :
    TraceRecord.line ⟨0x0010, .read, 0x0A⟩ = ['0', '0', '1', '0', ' ', 'r', ' ', '0', 'A', '\n']
      ∧ TraceRecord.line ⟨0xABCD, .write, 0x0F⟩ = ['A', 'B', 'C', 'D', ' ', 'W', ' ', '0', 'F', '\n'] := by
  decide

/-- Programs 1 and 2 and vector B-11: text, and the operand byte of a branch back. -/
theorem test_assembly :
    Assembly.text 0x0200 (.ldx (.imm 0x03)) = some ['L', 'D', 'X', ' ', '#', '$', '0', '3']
      ∧ Assembly.text 0x0310 (.inc (.mem (.zp 0x10))) = some ['I', 'N', 'C', ' ', '$', '1', '0']
      ∧ Assembly.branchOperand 0x0203 2 0x0202 = some 0xFD ∧ Assembly.branchTarget 0x0203 2 0xFD = 0x0202
      ∧ Assembly.branchOperand 0x0200 2 0x0300 = none := by
  decide

/-- HALTED has no step (rule R125). -/
theorem test_halted : step { State.reset with phase := .halted } = .fault .halted := rfl

/-- The interface's placing of a table word: the next step runs it. -/
theorem test_withFetchWord :
    seen (State.reset.withFetchWord 8 0xE8) (fun t => (t.x, t.pc)) = some (0x01, 0x0001) := by decide

/-- I-4: a request that `init()` asserts is injected after the first instruction. -/
theorem test_launch_pending :
    seen (Launch.start ⟨(cpu 0x0300 [0xEA]).mem, 0x0300, 0, 0, 0, 0xFF, 0x00⟩ (.scripted []) ⟨[], true⟩)
      (fun t => (t.mem.read 0x01FF, t.mem.read 0x01FE, t.sp)) = some (0x03, 0x01, 0xFC) := by decide

/-! ### Witnesses: for every statement with hypotheses, a state and operands that meet them -/

/-- D clear, for AdcBinary and SbcBinary. -/
theorem witness_AdcBinary_SbcBinary : (cpu 0x0200 [0x69, 0x01]).flag .D = false := by decide

/-- Both clauses of OverflowIsSignedOverflow: D clear, and a next state. -/
theorem witness_OverflowIsSignedOverflow :
    (cpu 0x0200 [0x69, 0x01]).flag .D = false
      ∧ (∃ t, exec (.adc (.imm 0x80)) (cpu 0x0200 [0x69, 0x80]) = .next t)
      ∧ (∃ t, exec (.sbc (.imm 0x80)) (cpu 0x0200 [0xE9, 0x80]) = .next t) :=
  ⟨rfl, ⟨_, rfl⟩, ⟨_, rfl⟩⟩

/-- DecimalArithmetic: D set, with operands that are BCD at the ends of its range and with one that is not. -/
theorem witness_DecimalArithmetic :
    ({ State.reset with p := 0x08, a := 0x99 } : State).flag .D = true ∧ Alu.validBcd 0x99 = true
      ∧ Alu.validBcd ((Source.imm 0x00).value State.reset) = true ∧ Alu.validBcd 0x9A = false
      ∧ Alu.validBcd 0xA0 = false := by
  decide

/-- CompareFlags: each of its three forms. -/
theorem witness_CompareFlags :
    (∃ (i : Instr) (reg : Byte), i = .cmp (.imm 0xFF) ∧ reg = State.reset.a)
      ∧ (∃ (i : Instr) (reg : Byte), i = .cpx (.imm 0xFF) ∧ reg = State.reset.x)
      ∧ (∃ (i : Instr) (reg : Byte), i = .cpy (.mem (.abs 0xFFFF)) ∧ reg = State.reset.y) :=
  ⟨⟨_, _, rfl, rfl⟩, ⟨_, _, rfl, rfl⟩, ⟨_, _, rfl, rfl⟩⟩

/-- ShiftResults: each of its four forms at a boundary value, on A. -/
theorem witness_ShiftResults :
    let s : State := { State.reset with a := 0xFF, p := 0x01 }
    0xFE = (RmwTarget.acc.value s).toNat * 2 % 256 ∧ true = (RmwTarget.acc.value s).getLsbD 7
      ∧ 0x7F = (RmwTarget.acc.value s).toNat / 2 ∧ true = (RmwTarget.acc.value s).getLsbD 0
      ∧ 0xFF = ((RmwTarget.acc.value s).toNat * 2 + (s.flag .C).toNat) % 256
      ∧ 0xFF = (RmwTarget.acc.value s).toNat / 2 + (s.flag .C).toNat * 128 := by
  decide

/-- IncDecResults: both forms at the wrap. -/
theorem witness_IncDecResults :
    0x00 = ((RmwTarget.acc.value { State.reset with a := 0xFF }).toNat + 1) % 256
      ∧ 0xFF = ((RmwTarget.acc.value State.reset).toNat + 255) % 256 := by
  decide

/-- StoreResults and PushResults: each form's value, in a state whose registers differ. -/
theorem witness_StoreResults_PushResults :
    let s : State := { State.reset with a := 0x01, x := 0x02, y := 0x03, p := 0xC0 }
    (0x01 : Byte) = s.a ∧ (0x02 : Byte) = s.x ∧ (0x03 : Byte) = s.y ∧ (0xF0 : Byte) = s.p ||| 0x30#8 := by
  decide

/-- LogicalResults and TestAndSetReset: each form with its function. -/
theorem witness_LogicalResults_TestAndSetReset :
    (∃ f, (Instr.and (.imm 0xFF) = .and (.imm 0xFF) ∧ f = Bool.and))
      ∧ (∃ f, (Instr.eor (.imm 0xFF) = .eor (.imm 0xFF) ∧ f = Bool.xor))
      ∧ (∃ f, (Instr.ora (.imm 0xFF) = .ora (.imm 0xFF) ∧ f = Bool.or))
      ∧ (∃ f : Bool → Bool → Bool, Instr.tsb (.zp 0xFF) = .tsb (.zp 0xFF) ∧ f = fun a v => v || a)
      ∧ (∃ f : Bool → Bool → Bool, Instr.trb (.zp 0xFF) = .trb (.zp 0xFF) ∧ f = fun a v => v && !a) :=
  ⟨⟨_, rfl, rfl⟩, ⟨_, rfl, rfl⟩, ⟨_, rfl, rfl⟩, ⟨_, rfl, rfl⟩, ⟨_, rfl, rfl⟩⟩

/-- MemoryBitResetSet, BranchResults, BitBranchResults and FlagInstructions: the first and last row of each list. -/
theorem witness_listed_instructions :
    (Instr.rmb0 0xFF, 0, false) ∈ memoryBitWrites 0xFF ∧ (Instr.smb7 0x00, 7, true) ∈ memoryBitWrites 0x00
      ∧ (Instr.bpl 0x80, true) ∈ branchConditions State.reset 0x80
      ∧ (Instr.beq 0x7F, false) ∈ branchConditions State.reset 0x7F
      ∧ (Instr.bra 0xFF, true) ∈ branchConditions State.reset 0xFF
      ∧ (Instr.bbr0 0xFF 0x80, 0, false) ∈ bitBranches 0xFF 0x80
      ∧ (Instr.bbs7 0x00 0x7F, 7, true) ∈ bitBranches 0x00 0x7F
      ∧ (Instr.clc, Flag.C, false) ∈ flagWrites ∧ (Instr.clv, Flag.V, false) ∈ flagWrites := by
  decide

/-- DecodeInvertsEncode, both directions. -/
theorem witness_DecodeInvertsEncode :
    decode [0x7C, 0xFF, 0xFF, 0x00] = .ok (.jmp (.iax 0xFFFF)) [0x00]
      ∧ (Instr.jmp (.iax 0xFFFF)).WellFormed
      ∧ [0x7C#8, 0xFF#8, 0xFF#8, 0x00#8] = encode (.jmp (.iax 0xFFFF)) ++ [0x00#8] := by
  decide

/-- EveryByteIsAnInstruction: the first and the last unmapped byte, and a mapped one. -/
theorem witness_EveryByteIsAnInstruction :
    (0x02#8) ∈ Config.unmappedBytes ∧ (0xFC#8) ∈ Config.unmappedBytes ∧ (0x00#8) ∉ Config.unmappedBytes := by decide

/-- BitInstructionFields: both sides hold of BBS7's byte and neither of 0x08. -/
theorem witness_BitInstructionFields :
    bitFields (Decode.instrOf 0xFF 0x10 0xFD) = some (7, 0xF, 1)
      ∧ ((0xFF#8).toNat % 16 = 0xF ∧ (0xFF#8).toNat / 16 % 8 = 7 ∧ (0xFF#8).toNat / 128 = 1)
      ∧ bitFields (Decode.instrOf 0x08 0x10 0xFD) = none := by
  decide

/-- StepRunsDecodedInstruction, and each of its clauses on other parameters. -/
theorem witness_StepRunsDecodedInstruction :
    let s := cpu 0xFFFF [0xA9, 0x05]
    s.phase = .fetch
      ∧ decode [s.mem.read s.pc, s.mem.read (s.pc + 1), s.mem.read (s.pc + 2)] = .ok (.lda (.imm 0x05)) [0x00]
      ∧ ({ Params.default with mappedSet := fun _ => false } : Params).mappedSet (s.mem.read s.pc) = false
      ∧ Params.default.mappedSet (s.mem.read s.pc) = true
      ∧ Params.default.handlers (s.mem.read s.pc) = .reference ∧ Params.default.cursorTopPolicy = .wrap
      ∧ s.mem.read s.pc ∉ Config.unmappedBytes
      ∧ ({ Params.default with handlers := fun _ => .program .done } : Params).handlers (s.mem.read s.pc)
        = .program .done :=
  ⟨rfl, by decide, rfl, by decide, rfl, rfl, by decide, rfl⟩

/-- AfterHandlerOrder and OnlyHaltedStops: a phase on each side. -/
theorem witness_AfterHandlerOrder_OnlyHaltedStops :
    State.reset.phase ≠ .haltFlush ∧ ({ State.reset with phase := .haltFlush } : State).phase = .haltFlush
      ∧ State.reset.phase ≠ .halted ∧ ({ State.reset with phase := .halted } : State).phase = .halted := by
  decide

/-- OnlyHaltedStops' clause on the policy `fault`: instructions of two bytes that end at 0xFFFF and one past it. -/
theorem witness_OnlyHaltedStops_policy :
    let length (s : State) : Nat :=
      (Decode.instrOf (s.mem.read s.pc) (s.mem.read (s.pc + 1)) (s.mem.read (s.pc + 2))).length
    (cpu 0xFFFE [0xA9, 0x05]).phase = .fetch ∧ 0xFFFE + length (cpu 0xFFFE [0xA9, 0x05]) ≤ 0x10000
      ∧ (cpu 0xFFFF [0xA9, 0x05]).phase = .fetch ∧ ¬ 0xFFFF + length (cpu 0xFFFF [0xA9, 0x05]) ≤ 0x10000
      ∧ faulting.cursorTopPolicy = .fault := by
  decide

/-- LaunchState's one premise: a canonical image. -/
theorem witness_LaunchState : Memory.wf (cpu 0x0300 [0xEA]).mem = true := by decide

/-- StepKeepsInvariant: a step from a state of the invariant, at FETCH and in a poll. -/
theorem witness_StepKeepsInvariant :
    (Inv (cpu 0x0200 [0xA9, 0x05]) ∧ (result (cpu 0x0200 [0xA9, 0x05])).isSome = true)
      ∧ (Inv { cpu 0x0402 [] with phase := .waitPoll, wait := true }
        ∧ (result { cpu 0x0402 [] with phase := .waitPoll, wait := true }).isSome = true) := by
  decide

/-- StepKeepsInvariant's clause on other parameters: a step outside the range of the reference handlers. -/
theorem witness_StepKeepsInvariant_params :
    let s : State := { cpu 0x0200 [0xEA] with decodeOffset := 9, branchDisplacement := 1000 }
    LoopInv s ∧ ¬ Inv s ∧ (seenUnder (withHandler (.setBranchDisplacement 1000 .done)) s id).isSome = true := by
  decide

/-- HandlersKeepContract, whose inner premises are WAIT set before the handler and an instruction that is not WAI; and
the opcodes of STP and WAI. -/
theorem witness_HandlersKeepContract :
    ({ cpu 0x0200 [] with wait := true } : State).wait = true
      ∧ Instr.nop ≠ .wai
      ∧ ({ cpu 0x0200 [] with currentOpcode := 0xDB } : State).currentOpcode = 0xDB#8
      ∧ ({ cpu 0x0200 [] with currentOpcode := 0xCB } : State).currentOpcode = 0xCB#8 :=
  ⟨rfl, by decide, rfl, rfl⟩

/-- HandlersKeepPcClass and PcAfterResolve: an instruction of each class, and a jump to itself. -/
theorem witness_HandlersKeepPcClass_PcAfterResolve :
    Instr.nop.pcClass = .sequential ∧ Instr.wai.pcClass = .wait ∧ Instr.stp.pcClass = .halt
      ∧ (Instr.bra 0x80).pcClass = .relative ∧ (Instr.jmp (.abs 0x0500)).pcClass = .absolute
      ∧ (∃ t, exec .nop (cpu 0x0500 []).fetchPhase = .next t)
      ∧ (∃ t, exec .wai (cpu 0x0500 []).fetchPhase = .next t)
      ∧ (∃ t, exec .stp (cpu 0x0500 []).fetchPhase = .next t)
      ∧ (∃ t, exec (.bra 0x80) (cpu 0x0500 []).fetchPhase = .next t)
      ∧ (∃ t, exec (.jmp (.abs 0x0500)) (cpu 0x0500 []).fetchPhase = .next t ∧ t.pc = 0x0500)
      ∧ (∃ t, exec (.jmp (.abs 0x0501)) (cpu 0x0500 []).fetchPhase = .next t ∧ t.pc ≠ 0x0500) :=
  ⟨rfl, rfl, rfl, rfl, rfl, ⟨_, rfl⟩, ⟨_, rfl⟩, ⟨_, rfl⟩, ⟨_, rfl⟩, ⟨_, rfl, rfl⟩,
    ⟨_, rfl, by decide⟩⟩

/-- TraceAccountsForMemory: the instruction in flight completes. -/
theorem witness_TraceAccountsForMemory :
    ∃ t, exec (cpu 0x0200 [0xEE, 0x34, 0x12]).fetchPhase.instructionInFlight
      (cpu 0x0200 [0xEE, 0x34, 0x12]).fetchPhase = .next t := ⟨_, rfl⟩

/-- ResolvePcRule: pc at the snapshot, at the top of the space, and pc elsewhere. -/
theorem witness_ResolvePcRule :
    (∃ s : State, s.pc = s.pcAtFetch ∧ s.pc = 0xFFFF) ∧ (∃ s : State, s.pc ≠ s.pcAtFetch) :=
  ⟨⟨{ State.reset with pc := 0xFFFF, pcAtFetch := 0xFFFF }, rfl, rfl⟩,
    ⟨{ State.reset with pc := 0x0001 }, by decide⟩⟩

/-- A poll that has to wait, with a device that never asserts. -/
def waiting : State := { State.reset with phase := .waitPoll, wait := true }

/-- WaitPollRule, each clause: the call leaves the request clear, the call sets it, no wait, a request pending. -/
theorem witness_WaitPollRule :
    (waiting.phase = .waitPoll ∧ waiting.wait = true ∧ waiting.interruptPending = false
        ∧ waiting.deviceHandle.interruptPending = false)
      ∧ ({ waiting with device := .scripted [⟨[], true⟩] } : State).deviceHandle.interruptPending = true
      ∧ ({ waiting with wait := false } : State).wait = false
      ∧ ({ waiting with interruptPending := true } : State).interruptPending = true := by
  decide

/-- WaitWithoutRequestNeverEnds, for two polls that a device passes without a request. -/
theorem witness_WaitWithoutRequestNeverEnds :
    waiting.phase = .waitPoll ∧ waiting.wait = true ∧ waiting.interruptPending = false
      ∧ ∀ j u, j < 2 → Leads j waiting u → u.deviceHandle.interruptPending = false := by
  refine ⟨rfl, rfl, rfl, fun j u hj h => ?_⟩
  have hj : j = 0 ∨ j = 1 := by omega
  rcases hj with rfl | rfl <;> cases h <;> rfl

/-- InjectionEligibility: each row of vector P4. -/
theorem witness_InjectionEligibility :
    let at4 (pending : Bool) (p : Byte) : State := { State.reset with interruptPending := pending, p := p }
    ((at4 true 0x00).interruptPending = true ∧ (at4 true 0x00).flag .I = false)
      ∧ ¬ ((at4 true 0x04).interruptPending = true ∧ (at4 true 0x04).flag .I = false)
      ∧ ¬ ((at4 false 0x00).interruptPending = true ∧ (at4 false 0x00).flag .I = false)
      ∧ ¬ ((at4 false 0x04).interruptPending = true ∧ (at4 false 0x04).flag .I = false) := by
  decide

/-- The canonical form, for the statements that only ask for it: InjectionEffects' frame, RtiReversesInjection,
PushThenPull and RtsReturnsFromJsr. -/
theorem witness_canonical_memory : (cpu 0xFFFF [0xA9, 0x05]).mem.wf = true := by decide

/-- CanonicalMemoryIsDeterminedByItsBytes: two ways of writing the same two bytes. -/
theorem witness_CanonicalMemoryIsDeterminedByItsBytes :
    let m : Memory := Memory.writes [] [(0x0000, 0x01), (0xFFFF, 0x02)]
    let n : Memory := Memory.writes [] [(0xFFFF, 0x02), (0x0000, 0x03), (0x8000, 0x00), (0x0000, 0x01)]
    m.wf = true ∧ n.wf = true ∧ m = n := by
  decide

/-- RequestClearedOnlyByInjection: a step that clears the request. -/
theorem witness_RequestClearedOnlyByInjection :
    let s : State := { cpu 0x0300 [0xEA] with interruptPending := true }
    s.interruptPending = true ∧ seen s (fun t => t.interruptPending) = some false := by
  decide

/-- StpEndsTheRun. -/
theorem witness_StpEndsTheRun :
    let s : State := { cpu 0xFFFF [0xDB] with interruptPending := true }
    s.phase = .fetch ∧ s.mem.read s.pc = 0xDB#8 ∧ s.interruptPending = true := by
  decide

/-- UnmappedIterationOnlyAdvancesPc, with no request and with one that I holds off, for both kinds of quiet device, and a
byte that only other parameters leave unmapped. -/
theorem witness_UnmappedIterationOnlyAdvancesPc :
    let s := cpu 0xFFFF [0xFC]
    (s.phase = .fetch ∧ s.mem.read s.pc = 0xFC#8 ∧ (0xFC#8) ∈ Config.unmappedBytes
        ∧ s.device = .scripted [] ∧ s.interruptPending = false)
      ∧ (({ s with p := 0x04, interruptPending := true } : State).flag .I = true
        ∧ ({ s with device := .scripted [⟨[], false⟩, ⟨[], true⟩] } : State).device
          = .scripted (⟨[], false⟩ :: [⟨[], true⟩]))
      ∧ ({ Params.default with mappedSet := fun op => Config.mapped op && op != 0xCB } : Params).mappedSet
          ((cpu 0x0401 [0xCB]).mem.read 0x0401) = false :=
  by decide

/-- CliInjectsAtItsOwnBoundary. -/
theorem witness_CliInjectsAtItsOwnBoundary :
    let s : State := { cpu 0x0400 [0x58] with p := 0x04, interruptPending := true }
    s.phase = .fetch ∧ s.mem.read s.pc = 0x58#8 ∧ s.interruptPending = true ∧ s.mem.wf = true
      ∧ s.device = .scripted [] := by
  decide

/-- BranchOperandAndTarget: the ends of the reach, across the top of the space, and a state at such a branch. -/
theorem witness_BranchOperandAndTarget :
    Assembly.branchOperand 0xFFF0 2 0x0071 = some 0x7F ∧ Assembly.branchTarget 0xFFF0 2 0x7F = 0x0071
      ∧ Assembly.branchOperand 0x0000 2 0xFF82 = some 0x80 ∧ Assembly.branchTarget 0x0000 2 0x80 = 0xFF82
      ∧ ∃ s : State, s.pc = 0xFFF0 ∧ s.pcAtFetch = 0xFFF0 ∧ s.decodeOffset = 2
        ∧ s.branchDisplacement = int8 0x7F :=
  ⟨by decide, by decide, by decide, by decide,
    ⟨{ State.reset with pc := 0xFFF0, pcAtFetch := 0xFFF0, decodeOffset := 2, branchDisplacement := 127 }, by decide⟩⟩

/-- DeviceCallFrame's clause on bytes not written. -/
theorem witness_DeviceCallFrame :
    ∀ w ∈ [((0x3000 : Addr), (0x99 : Byte))], w.1 ≠ (0x3001 : Addr) := by simp

end Sys2Proof.Tests
end

section
/-! PROOFS. Every step keeps the invariant (O11): what a handler keeps, then what the phases after it restore. -/

namespace Sys2Proof.Machine

open State

/-! ### What every handler keeps -/

/-- What every handler keeps, reference or not: memory's canonical form (log 6) and the controller's state (rule R111). -/
structure HandlerKeeps (s t : State) : Prop where
  wf : s.mem.wf → t.mem.wf
  icState : t.icState = s.icState

namespace HandlerKeeps

theorem refl (s : State) : HandlerKeeps s s := ⟨id, rfl⟩

theorem trans {s t u : State} (h : HandlerKeeps s t) (k : HandlerKeeps t u) : HandlerKeeps s u :=
  ⟨k.wf ∘ h.wf, k.icState.trans h.icState⟩

/-- An update of other fields. -/
theorem of_mem_eq {s t : State} (hm : t.mem = s.mem := by rfl) (hi : t.icState = s.icState := by rfl) :
    HandlerKeeps s t :=
  ⟨fun h => hm ▸ h, hi⟩

theorem busWrite (addr : Addr) (v : Byte) (s : State) : HandlerKeeps s (s.busWrite addr v) :=
  ⟨fun h => Memory.wf_write h addr v, rfl⟩

theorem fetch {policy : CursorTopPolicy} {s : State} {r : Byte × State} (h : s.fetch policy = .next r) :
    HandlerKeeps s r.2 := by
  unfold State.fetch at h
  split at h
  · cases h
  · cases h
    exact of_mem_eq

theorem haltResult (s : State) : HandlerKeeps s s.haltResult := by
  rw [haltResult_eq]
  exact of_mem_eq

theorem requestWait (s : State) : HandlerKeeps s s.requestWait := by
  rw [requestWait_eq]
  exact of_mem_eq

/-- A handler program keeps both, action by action (rule R110). -/
theorem run {policy : CursorTopPolicy} {body : HandlerProgram} {s t : State}
    (h : body.run policy s = .next t) : HandlerKeeps s t := by
  induction body generalizing s with
  | done => cases h; exact refl _
  | halt => cases h; exact haltResult _
  | fetch next ih =>
    simp only [HandlerProgram.run] at h
    split at h
    next r hr => exact (fetch hr).trans (ih _ h)
    all_goals cases h
  | memRead addr next ih => exact trans of_mem_eq (ih _ h)
  | memWrite addr v next ih => exact (busWrite addr v s).trans (ih h)
  | setWait next ih => exact (requestWait s).trans (ih h)
  | view next ih => exact ih _ h
  | draw next ih => exact trans of_mem_eq (ih _ h)
  | setA v next ih | setX v next ih | setY v next ih | setSp v next ih | setP v next ih | setPc v next ih
  | setBranchDisplacement v next ih => exact trans of_mem_eq (ih h)

end HandlerKeeps

/-! ### What a reference handler does once its operand bytes are consumed -/

/-- What the computation of a reference handler does, its operand bytes consumed: the cursor stands still, and the
displacement is left alone or set to eight signed bits (rule R209). -/
structure Computes (s t : State) : Prop extends HandlerKeeps s t where
  decodeOffset : t.decodeOffset = s.decodeOffset
  branchDisplacement : t.branchDisplacement = s.branchDisplacement ∨ ∃ rel, t.branchDisplacement = int8 rel

namespace Computes

theorem trans {s t u : State} (h : Computes s t) (k : Computes t u) : Computes s u where
  toHandlerKeeps := h.toHandlerKeeps.trans k.toHandlerKeeps
  decodeOffset := k.decodeOffset.trans h.decodeOffset
  branchDisplacement := k.branchDisplacement.elim (fun e => e ▸ h.branchDisplacement) .inr

/-- An update of other fields. -/
theorem of_mem_eq {s t : State} (hm : t.mem = s.mem := by rfl) (hi : t.icState = s.icState := by rfl)
    (ho : t.decodeOffset = s.decodeOffset := by rfl)
    (hd : t.branchDisplacement = s.branchDisplacement := by rfl) : Computes s t :=
  ⟨.of_mem_eq hm hi, ho, .inl hd⟩

/-- An update of memory that keeps its canonical form, and of other fields. -/
theorem of_wf {s t : State} (hm : s.mem.wf → t.mem.wf) (hi : t.icState = s.icState := by rfl)
    (ho : t.decodeOffset = s.decodeOffset := by rfl)
    (hd : t.branchDisplacement = s.branchDisplacement := by rfl) : Computes s t :=
  ⟨⟨hm, hi⟩, ho, .inl hd⟩

theorem setFlag (f : Flag) (b : Bool) (s : State) : Computes s (s.setFlag f b) := of_mem_eq

theorem branchIf (cond : Bool) (rel : Byte) (s : State) : Computes s (s.branchIf cond rel) where
  toHandlerKeeps := .of_mem_eq
  decodeOffset := rfl
  branchDisplacement := by
    cases cond
    · exact .inl rfl
    · exact .inr ⟨rel, rfl⟩

theorem branchOnMemoryBit (n : Nat) (want : Bool) (z rel : Byte) (s : State) :
    Computes s (s.branchOnMemoryBit n want z rel) :=
  trans of_mem_eq (branchIf _ rel (s.busRead (zext16 z)).2)

theorem load (src : Source) (s : State) : Computes s (src.load s).2 :=
  of_mem_eq (by simp) (by simp) (by simp) (by simp)

theorem resolve (t : JumpTarget) (s : State) : Computes s (t.resolve s).2 :=
  of_mem_eq (by simp) (by simp) (by simp) (by simp)

theorem store (m : MemMode) (v : Byte) (s : State) : Computes s (m.store v s) :=
  of_wf (fun h => by simpa using Memory.wf_write h _ _) (by simp) (by simp) (by simp)

theorem memModify (m : MemMode) (f : Byte → Byte → Byte × Byte) (s : State) : Computes s (m.modify f s) :=
  of_wf (fun h => by simpa using Memory.wf_write h _ _) (by simp) (by simp) (by simp)

theorem modify (t : RmwTarget) (f : Byte → Byte → Byte × Byte) (s : State) : Computes s (t.modify f s) := by
  cases t with
  | acc => exact of_mem_eq
  | mem m => exact memModify m f s

theorem busWrite (addr : Addr) (v : Byte) (s : State) : Computes s (s.busWrite addr v) :=
  of_wf (Memory.wf_write · addr v)

theorem push (v : Byte) (s : State) : Computes s (s.push v) :=
  (busWrite _ v s).trans of_mem_eq

theorem pushAddr (v : Addr) (s : State) : Computes s (s.pushAddr v) :=
  (push (hiByte v) s).trans (push (loByte v) _)

theorem resetMemoryBit (n : Nat) (z : Byte) (s : State) : Computes s (s.resetMemoryBit n z) :=
  trans of_mem_eq (busWrite _ _ (s.busRead (zext16 z)).2)

theorem setMemoryBit (n : Nat) (z : Byte) (s : State) : Computes s (s.setMemoryBit n z) :=
  trans of_mem_eq (busWrite _ _ (s.busRead (zext16 z)).2)

theorem enterVector (ret : Addr) (status : Byte) (s : State) : Computes s (s.enterVector ret status) := by
  rw [enterVector_spec]
  exact of_wf (wf_frameMem · ret status s.sp)

theorem returnFromVector (s : State) : Computes s s.returnFromVector := by
  rw [returnFromVector_spec]
  exact of_mem_eq

theorem addWithCarry (m : Byte) (s : State) : Computes s (s.addWithCarry m) := by
  cases h : s.flag .D with
  | true => rw [addWithCarry_set h]; exact of_mem_eq
  | false => rw [addWithCarry_clear h]; exact of_mem_eq

theorem subtractWithBorrow (m : Byte) (s : State) : Computes s (s.subtractWithBorrow m) := by
  cases h : s.flag .D with
  | true => rw [subtractWithBorrow_set h]; exact of_mem_eq
  | false => rw [subtractWithBorrow_clear h]; exact of_mem_eq

theorem testBits (src : Source) (m : Byte) (s : State) : Computes s (s.testBits src m) := by
  cases src <;> exact of_mem_eq

end Computes

/-- Every reference handler consumes its operand bytes and then only computes (rules R110 and R111). -/
theorem exec_computes (i : Instr) (s : State) :
    ∃ t, exec i s = .next t ∧ Computes (consumeAll i.operandBytes s) t := by
  cases i with
  | adc src => exact ⟨_, rfl, (Computes.load src _).trans (.addWithCarry _ _)⟩
  | sbc src => exact ⟨_, rfl, (Computes.load src _).trans (.subtractWithBorrow _ _)⟩
  | bit src => exact ⟨_, rfl, (Computes.load src _).trans (.testBits src _ _)⟩
  | lda src | ldx src | ldy src | and src | eor src | ora src | cmp src | cpx src | cpy src =>
    exact ⟨_, rfl, (Computes.load src _).trans .of_mem_eq⟩
  | sta m | stx m | sty m | stz m => exact ⟨_, rfl, .store m _ _⟩
  | tsb m | trb m => exact ⟨_, rfl, .memModify m _ _⟩
  | asl t | lsr t | rol t | ror t | inc t | dec t => exact ⟨_, rfl, .modify t _ _⟩
  | rmb0 z | rmb1 z | rmb2 z | rmb3 z | rmb4 z | rmb5 z | rmb6 z | rmb7 z =>
    exact ⟨_, rfl, .resetMemoryBit _ z _⟩
  | smb0 z | smb1 z | smb2 z | smb3 z | smb4 z | smb5 z | smb6 z | smb7 z =>
    exact ⟨_, rfl, .setMemoryBit _ z _⟩
  | bpl rel | bmi rel | bvc rel | bvs rel | bcc rel | bcs rel | bne rel | beq rel | bra rel =>
    exact ⟨_, rfl, .branchIf _ rel _⟩
  | bbr0 z rel | bbr1 z rel | bbr2 z rel | bbr3 z rel | bbr4 z rel | bbr5 z rel | bbr6 z rel | bbr7 z rel
  | bbs0 z rel | bbs1 z rel | bbs2 z rel | bbs3 z rel | bbs4 z rel | bbs5 z rel | bbs6 z rel | bbs7 z rel =>
    exact ⟨_, rfl, .branchOnMemoryBit _ _ z rel _⟩
  | jmp t => exact ⟨_, rfl, (Computes.resolve t _).trans .of_mem_eq⟩
  | jsr target => exact ⟨_, rfl, (Computes.pushAddr _ _).trans .of_mem_eq⟩
  | brk sig => exact ⟨_, rfl, (Computes.enterVector _ _ _).trans (.setFlag .D false _)⟩
  | pha | php | phx | phy => exact ⟨_, rfl, .push _ _⟩
  | rti => exact ⟨_, rfl, .returnFromVector _⟩
  | pla | plp | plx | ply | rts | clc | sec | cli | sei | cld | sed | clv | inx | iny | dex | dey
  | tax | tay | tsx | txa | txs | tya | wai | stp | nop | unmapped op => exact ⟨_, rfl, .of_mem_eq⟩

/-- The same of the state a reference handler is known to have answered. -/
theorem computes_of_exec {i : Instr} {s t : State} (h : exec i s = .next t) :
    Computes (consumeAll i.operandBytes s) t := by
  obtain ⟨u, hu, hc⟩ := exec_computes i s
  cases h.symm.trans hu
  exact hc

namespace HandlerKeeps

theorem exec {i : Instr} {s t : State} (h : exec i s = .next t) : HandlerKeeps s t :=
  trans (of_mem_eq (by simp) (by simp)) (computes_of_exec h).toHandlerKeeps

theorem runReference {policy : CursorTopPolicy} {s t : State} (h : s.runReference policy = .next t) :
    HandlerKeeps s t := by
  unfold State.runReference at h
  split at h
  · exact exec h
  all_goals cases h

/-- DISPATCH keeps both under any value of the parameters (rules R8 and R106). -/
theorem dispatch {P : Params} {s t : State} (h : P.dispatch s = .next t) : HandlerKeeps s t := by
  unfold Params.dispatch at h
  split at h
  · cases hh : P.handlers s.currentOpcode with
    | reference => exact runReference (by rwa [hh] at h)
    | program body => exact run (by rwa [hh] at h)
  · exact exec h

end HandlerKeeps

/-! ### The phases around a handler -/

/-- INTERRUPT_CHECK injects or only moves on to FETCH (rule R264). -/
theorem interruptCheck_cases (s : State) :
    s.interruptCheck = { s.inject with phase := .fetch } ∨ s.interruptCheck = { s with phase := .fetch } := by
  unfold interruptCheck
  split
  · exact .inl rfl
  · exact .inr rfl

/-- INTERRUPT_CHECK ends at FETCH, armed, with memory canonical (rules R264 and R265). -/
theorem loopInv_interruptCheck {s : State} (hm : s.mem.wf) (hi : s.icState = .armed) :
    LoopInv s.interruptCheck := by
  obtain hc | hc := interruptCheck_cases s
  · rw [hc, inject_spec]
    exact ⟨wf_frameMem hm _ _ _, .inl rfl, nofun, fun hne => absurd rfl hne, rfl⟩
  · rw [hc]
    exact ⟨hm, .inl rfl, nofun, fun hne => absurd rfl hne, hi⟩

/-- After a device pass the loop waits, if the poll's test holds, or ends at FETCH (rule R118). -/
theorem loopInv_afterSync {s : State} (hm : s.mem.wf) (hd : s.dirty = false) (hi : s.icState = .armed) :
    LoopInv s.afterSync := by
  unfold afterSync
  split
  next hw =>
    have hpoll : s.wait = true ∧ s.interruptPending = false := by simpa [mustWait] using hw
    exact ⟨hm, .inr (.inl rfl), fun _ => hpoll, fun _ => hd, hi⟩
  next => exact loopInv_interruptCheck hm hi

theorem loopInv_waitPoll {s : State} (hm : s.mem.wf) (hi : s.icState = .armed) : LoopInv s.waitPoll := by
  unfold waitPoll
  split
  · exact loopInv_afterSync (deviceSync_wf hm) rfl hi
  · exact loopInv_interruptCheck hm hi

theorem loopInv_fromIoSync {s : State} (hm : s.mem.wf) (hi : s.icState = .armed) : LoopInv s.fromIoSync :=
  loopInv_afterSync (deviceSync_wf hm) rfl hi

theorem loopInv_haltFlush {s : State} (hm : s.mem.wf) (hi : s.icState = .armed) : LoopInv s.haltFlush :=
  ⟨deviceSync_wf hm, .inr (.inr rfl), nofun, fun _ => rfl, hi⟩

theorem loopInv_afterHandler {s : State} (hm : s.mem.wf) (hi : s.icState = .armed) :
    LoopInv s.afterHandler := by
  unfold afterHandler
  split
  · exact loopInv_haltFlush hm hi
  · exact loopInv_fromIoSync hm hi

/-- Whatever handler DISPATCH runs, what follows it ends in the loop's invariant (rule R100). -/
theorem loopInv_afterHandler_of_dispatch {P : Params} {s u : State} (hm : s.mem.wf) (hi : s.icState = .armed)
    (hu : P.dispatch s = .next u) : LoopInv u.afterHandler :=
  have k := HandlerKeeps.dispatch hu
  loopInv_afterHandler (k.wf hm) (k.icState.trans hi)

/-- A step ends in the loop's invariant from any phase, whatever the parameters (rules R8 and R100): of the state it
starts in it needs only memory's canonical form and the armed controller. -/
theorem stepUnder_loopInv {P : Params} {s t : State} (hm : s.mem.wf) (hi : s.icState = .armed)
    (h : stepUnder P s = .next t) : LoopInv t := by
  obtain ⟨-, u, hu, rfl⟩ | ⟨-, u, hu, rfl⟩ | ⟨-, rfl⟩ | ⟨-, rfl⟩ | ⟨-, rfl⟩ | ⟨-, rfl⟩ | ⟨-, rfl⟩ := stepUnder_next h
  · exact loopInv_afterHandler_of_dispatch (s := s.fetchPhase) hm hi hu
  · exact loopInv_afterHandler_of_dispatch hm hi hu
  · exact loopInv_fromIoSync hm hi
  · exact loopInv_fromIoSync hm hi
  · exact loopInv_waitPoll hm hi
  · exact loopInv_interruptCheck hm hi
  · exact loopInv_haltFlush hm hi

/-! ### The cursor's range -/

/-- The cursor's offset and the displacement inside their range (rules R30 and R31). -/
def CursorInRange (s : State) : Prop :=
  s.decodeOffset ≤ 3 ∧ -128 ≤ s.branchDisplacement ∧ s.branchDisplacement ≤ 127

/-- `int8` is in the range of rule R31. -/
theorem int8_range (b : Byte) : -128 ≤ int8 b ∧ int8 b ≤ 127 := by
  have hlo := b.le_toInt
  have hhi := b.toInt_lt
  simp only [int8]
  omega

theorem CursorInRange.interruptCheck {s : State} (h : CursorInRange s) : CursorInRange s.interruptCheck := by
  obtain hc | hc := interruptCheck_cases s
  · rw [hc, inject_spec]
    exact h
  · rw [hc]
    exact h

theorem CursorInRange.afterSync {s : State} (h : CursorInRange s) : CursorInRange s.afterSync := by
  unfold State.afterSync
  split
  · exact h
  · exact h.interruptCheck

theorem CursorInRange.waitPoll {s : State} (h : CursorInRange s) : CursorInRange s.waitPoll := by
  unfold State.waitPoll
  split
  · exact afterSync (s := s.deviceSync) h
  · exact h.interruptCheck

theorem CursorInRange.afterHandler {s : State} (h : CursorInRange s) : CursorInRange s.afterHandler := by
  unfold State.afterHandler
  split
  · exact h
  · exact afterSync (s := s.resolvePc.ioSync) h

/-- A reference handler run after FETCH: the offset is the instruction's length (rule R88). -/
theorem CursorInRange.exec_fetchPhase {i : Instr} {s t : State} (h : exec i s.fetchPhase = .next t) :
    CursorInRange t := by
  have hc := computes_of_exec h
  have hlen : t.decodeOffset = i.length := by
    rw [hc.decodeOffset, consumeAll_decodeOffset, fetchPhase_eq, ← i.operandBytes_length, Nat.add_comm]
  refine ⟨hlen ▸ i.mode.length_le, ?_⟩
  rcases hc.branchDisplacement with hd | ⟨rel, hd⟩
  · simp [hd, fetchPhase_eq]
  · exact hd ▸ int8_range rel

/-- A poll keeps the range, and an iteration makes it anew from FETCH on (rules R30 and R31). -/
theorem step_cursorInRange {s t : State} (hphase : s.phase = .fetch ∨ s.phase = .waitPoll ∨ s.phase = .halted)
    (hr : CursorInRange s) (h : step s = .next t) : CursorInRange t := by
  obtain hf | hw | hh := hphase
  · rw [step_fetch hf] at h
    obtain ⟨u, hu, rfl⟩ := afterDispatch_next h
    exact (CursorInRange.exec_fetchPhase hu).afterHandler
  · cases (step_waitPoll hw).symm.trans h
    exact hr.waitPoll
  · cases (step_halted hh).symm.trans h

end Sys2Proof.Machine

namespace Sys2Proof.Claims

open Machine

/-- Settles O11: handlers keep memory's form and the armed controller, the phases after one restore the rest of
`LoopInv` from any state, and the cursor's range starts anew at each FETCH. -/
theorem stepKeepsInvariant : Obligations.StepKeepsInvariant := by
  intro s t
  refine ⟨fun ⟨hloop, hrange⟩ hstep => ?_, fun P hloop hstep => ?_⟩
  · obtain ⟨hm, hphase, -, -, hi⟩ := hloop
    exact ⟨stepUnder_loopInv hm hi hstep, step_cursorInRange hphase hrange hstep⟩
  · obtain ⟨hm, -, -, -, hi⟩ := hloop
    exact stepUnder_loopInv hm hi hstep

end Sys2Proof.Claims
end

section
/-! PROOFS. Memory, the stack and the trace (O29, O30, O31): a canonical memory is its bytes, a push and a pull at the
addresses the spec writes, and a trace line digit by digit. -/

namespace Sys2Proof

open Machine

/-! ### Addresses as the spec writes them -/

/-- A zero-page address is its byte (rules R10 and R78). -/
theorem zext16_eq_ofNat (b : Byte) : zext16 b = BitVec.ofNat 16 b.toNat :=
  (BitVec.ofNat_toNat 16 b).symm

/-- The stack page with SP as the offset, as a number (rule R58). -/
theorem Machine.State.stackAddr_eq_ofNat (sp : Byte) :
    State.stackAddr sp = BitVec.ofNat 16 (0x100 + sp.toNat) := by
  rw [State.stackAddr, zext16_eq_ofNat, BitVec.ofNat_add]

namespace Machine.Memory

/-! ### The canonical form -/

/-- A listed cell is what its key reads as. -/
theorem lookup_of_mem {m : Memory} (hm : List.Pairwise (fun c d : Host.Cell => c.1 < d.1) m) {c : Host.Cell}
    (hc : c ∈ m) : lookup m c.1 = c.2 := by
  induction m with
  | nil => cases hc
  | cons d rest ih =>
    obtain ⟨hd, hrest⟩ := List.pairwise_cons.1 hm
    rcases List.mem_cons.1 hc with rfl | hc
    · simp [lookup]
    · rw [lookup, if_neg (hd c hc).ne', ih hrest hc]

/-- A key that does not read as unlisted is listed. -/
theorem mem_of_lookup_ne {m : Memory} {k : Nat} (h : lookup m k ≠ Config.unlistedByte) : (k, lookup m k) ∈ m := by
  induction m with
  | nil => exact absurd rfl h
  | cons d rest ih =>
    by_cases hk : k = d.1
    · simp [lookup, hk]
    · rw [lookup, if_neg hk] at h ⊢
      exact List.mem_cons_of_mem _ (ih h)

/-- What a memory in the canonical form lists: each address in the 16-bit space that reads as another byte than the
unlisted one, with that byte. -/
theorem mem_iff_read {m : Memory} (hm : m.wf) (c : Host.Cell) :
    c ∈ m ↔ ∃ a : Addr, a.toNat = c.1 ∧ m.read a = c.2 ∧ c.2 ≠ Config.unlistedByte := by
  obtain ⟨hsorted, hcells⟩ := wf_iff.1 hm
  constructor
  · intro hc
    obtain ⟨hlt, hne⟩ := hcells c hc
    have ha : (BitVec.ofNat 16 c.1).toNat = c.1 := Nat.mod_eq_of_lt hlt
    exact ⟨BitVec.ofNat 16 c.1, ha, by rw [read, ha, lookup_of_mem hsorted hc], hne⟩
  · obtain ⟨k, v⟩ := c
    rintro ⟨a, rfl, rfl, hne⟩
    exact mem_of_lookup_ne hne

/-- Memories in the canonical form that read alike are equal: they list the same cells, in the same order. -/
theorem eq_of_read_eq {m n : Memory} (hm : m.wf) (hn : n.wf) (h : ∀ a, m.read a = n.read a) : m = n := by
  have hasymm : Std.Asymm fun c d : Host.Cell => c.1 < d.1 := ⟨fun _ _ => Nat.lt_asymm⟩
  refine List.Pairwise.eq_of_mem_iff (wf_iff.1 hm).1 (wf_iff.1 hn).1 fun c => ?_
  simp only [mem_iff_read hm, mem_iff_read hn, h]

end Machine.Memory

namespace Claims

/-! ### The trace sink's text -/

/-- The digit characters are the sixteen of rule R53. -/
theorem hexDigit_eq_upperHex (d : Fin 16) : hexDigit d = upperHex d := by
  revert d; decide

/-- The digit of a number at its lowest place. -/
theorem hexDigit_mod (n : Nat) : hexDigit (n % 16) = upperHex (Fin.ofNat 16 n) :=
  hexDigit_eq_upperHex (Fin.ofNat 16 n)

/-- Settles O31: the digits are those at the places 16³ to 16⁰ of the address and of the value. -/
theorem traceLineFormat : Obligations.TraceLineFormat := by
  rintro ⟨addr, dir, value⟩
  have ha := addr.isLt
  have hv := value.isLt
  refine ⟨Fin.ofNat 16 (addr.toNat / 16 / 16 / 16), Fin.ofNat 16 (addr.toNat / 16 / 16),
    Fin.ofNat 16 (addr.toNat / 16), Fin.ofNat 16 addr.toNat,
    Fin.ofNat 16 (value.toNat / 16), Fin.ofNat 16 value.toNat, ?_, ?_, ?_⟩
  · cases dir <;> simp [TraceRecord.line, hex, hexDigit_mod, Direction.marker]
  · simp only [Fin.ofNat]
    omega
  · simp only [Fin.ofNat]
    omega

/-! ### Memory and the stack -/

/-- Settles O30: both memories list the same cells, in rising order. -/
theorem canonicalMemoryIsDeterminedByItsBytes : Obligations.CanonicalMemoryIsDeterminedByItsBytes :=
  fun _ _ hm hn h => Memory.eq_of_read_eq hm hn h

/-- A bus write stores one byte (rule R52). -/
theorem storesByte_busWrite (a : Addr) (v : Byte) (s : State) : StoresByte a v s (s.busWrite a v) :=
  ⟨fun hm => Memory.read_write_self hm a v, fun _ hb => Memory.read_write_ne s.mem v hb, rfl⟩

/-- Settles O29: the push stores at the address that the pull, SP being back one up, reads from. -/
theorem pushThenPull : Obligations.PushThenPull := by
  intro s v
  have hback : s.sp - 1 + 1 = s.sp := BitVec.sub_add_cancel s.sp 1
  have hpull : (s.push v).pull.1 = (s.mem.write (State.stackAddr s.sp) v).read (State.stackAddr s.sp) :=
    congrArg (fun sp => (s.mem.write (State.stackAddr s.sp) v).read (State.stackAddr sp)) hback
  refine ⟨State.stackAddr_eq_ofNat s.sp ▸ storesByte_busWrite _ v s, ?_, ?_, hback, rfl, ?_, ?_, rfl⟩
  · rw [State.push_eq, State.setSp_sp]
    bv_omega
  · intro hm
    rw [hpull, Memory.read_write_self hm]
  · rw [State.pull_fst, State.stackAddr_eq_ofNat, BitVec.toNat_add]
    rfl
  · exact BitVec.toNat_add ..

end Claims

end Sys2Proof
end

section
/-! PROOFS. A handler's accesses (O16, O17): what each shared operation does to memory, DIRTY and the trace, as a list of
records, and the list that every reference handler comes to. -/

namespace Sys2Proof

open Machine

/-! ### Addresses and bytes as the spec writes them -/

/-- Indexing within page zero wraps there (rule R79). -/
theorem zext16_add (b c : Byte) : zext16 (b + c) = BitVec.ofNat 16 ((b.toNat + c.toNat) % 256) := by
  rw [zext16_eq_ofNat, BitVec.toNat_add]

/-- So does the address of a pointer's high byte. -/
theorem zpPointerHi_eq_ofNat (b : Byte) : zpPointerHi b = BitVec.ofNat 16 ((b.toNat + 1) % 256) :=
  zext16_add b 1

/-- An absolute address and an index (rule R80). -/
theorem add_zext16 (a : Addr) (b : Byte) : a + zext16 b = BitVec.ofNat 16 (a.toNat + b.toNat) := by
  simp [BitVec.ofNat_add, zext16]

/-- The address after another one. -/
theorem add_one_eq_ofNat (a : Addr) : a + 1 = BitVec.ofNat 16 (a.toNat + 1) := by
  simp [BitVec.ofNat_add]

/-- Complementing a byte (rules R206 and R207). -/
theorem xor_ones_eq_not (b : Byte) : b ^^^ 0xFF#8 = ~~~b := BitVec.xor_allOnes

namespace Machine.Alu

/-- The byte INC writes, as a number (rule R238). -/
theorem inc_fst (v p : Byte) : (inc v p).1 = BitVec.ofNat 8 (v.toNat + 1) := by
  simp [inc, BitVec.ofNat_add]

/-- The byte DEC writes: adding 255 takes 1 away mod 256 (rule R239). -/
theorem dec_fst (v p : Byte) : (dec v p).1 = BitVec.ofNat 8 (v.toNat + 255) := by
  simp only [dec]
  bv_omega

/-- The byte TSB writes (rule R205). -/
theorem tsb_fst (a v p : Byte) : (tsb a v p).1 = BitVec.ofNat 8 (v.toNat ||| a.toNat) := by
  rw [← BitVec.toNat_or, BitVec.ofNat_toNat, BitVec.setWidth_eq, tsb]

/-- The byte TRB writes: the complement takes each bit of A away (rule R206). -/
theorem trb_fst (a v p : Byte) : (trb a v p).1 = BitVec.ofNat 8 (v.toNat &&& (255 - a.toNat)) := by
  have hnot : 255 - a.toNat = (~~~a).toNat := (BitVec.toNat_not (x := a)).symm
  rw [hnot, ← BitVec.toNat_and, BitVec.ofNat_toNat, BitVec.setWidth_eq, trb, xor_ones_eq_not]

end Machine.Alu

namespace Claims

/-! ### Lists of records -/

theorem replay_append (rs qs : List TraceRecord) (m : Memory) :
    replay (rs ++ qs) m = replay qs (replay rs m) := by
  induction rs generalizing m with
  | nil => rfl
  | cons r rest ih => rcases r with ⟨a, _ | _, v⟩ <;> exact ih _

theorem accounts_append {rs qs : List TraceRecord} {m : Memory} :
    Accounts (rs ++ qs) m ↔ Accounts rs m ∧ Accounts qs (replay rs m) := by
  induction rs generalizing m with
  | nil => exact (iff_of_eq (true_and _)).symm
  | cons r rest ih =>
    rcases r with ⟨a, _ | _, v⟩
    · exact (and_congr_right fun _ => ih).trans and_assoc.symm
    · exact ih

theorem anyWrite_append (rs qs : List TraceRecord) : anyWrite (rs ++ qs) = (anyWrite rs || anyWrite qs) :=
  List.any_append

/-- What happened from `s` to `t` is the accesses `rs`, oldest first: they are what the trace has more, each read shows
the byte then held, and memory and DIRTY are what the writes among them make (rules R51, R52 and R54). -/
structure Accesses (rs : List TraceRecord) (s t : State) : Prop where
  trace : t.trace = rs.reverse ++ s.trace
  accounts : Accounts rs s.mem
  mem : t.mem = replay rs s.mem
  dirty : t.dirty = (s.dirty || anyWrite rs)

namespace Accesses

/-- An update of other fields makes no access. -/
theorem silent {s t : State} (ht : t.trace = s.trace := by rfl) (hm : t.mem = s.mem := by rfl)
    (hd : t.dirty = s.dirty := by rfl) : Accesses [] s t :=
  ⟨ht, trivial, hm, hd.trans (Bool.or_false _).symm⟩

theorem trans {rs qs : List TraceRecord} {s t u : State} (h : Accesses rs s t) (k : Accesses qs t u) :
    Accesses (rs ++ qs) s u where
  trace := by rw [k.trace, h.trace, List.reverse_append, List.append_assoc]
  accounts := accounts_append.2 ⟨h.accounts, h.mem ▸ k.accounts⟩
  mem := by rw [k.mem, h.mem, replay_append]
  dirty := by rw [k.dirty, h.dirty, anyWrite_append, Bool.or_assoc]

/-- Accesses, then an update of other fields. -/
theorem andSilent {rs : List TraceRecord} {s t u : State} (h : Accesses rs s t) (k : Accesses [] t u) :
    Accesses rs s u :=
  List.append_nil rs ▸ h.trans k

/-! ### The shared operations -/

theorem busRead (addr : Addr) (s : State) : Accesses [reads s addr] s (s.busRead addr).2 :=
  ⟨rfl, ⟨rfl, trivial⟩, rfl, (Bool.or_false _).symm⟩

theorem busWrite (addr : Addr) (v : Byte) (s : State) : Accesses [writes addr v] s (s.busWrite addr v) :=
  ⟨rfl, trivial, rfl, (Bool.or_true _).symm⟩

theorem readPair (lo hi : Addr) (s : State) : Accesses [reads s lo, reads s hi] s (s.readPair lo hi).2 :=
  (busRead lo s).trans (busRead hi (s.busRead lo).2)

/-- One read and one write of a byte (rule R140). -/
theorem readThenWrite (addr : Addr) (v : Byte) (s : State) :
    Accesses [reads s addr, writes addr v] s ((s.busRead addr).2.busWrite addr v) :=
  (busRead addr s).trans (busWrite addr v _)

theorem push (v : Byte) (s : State) : Accesses (pushRecords s.sp [v]) s (s.push v) :=
  (busWrite (State.stackAddr s.sp) v s).andSilent silent

theorem pushAddr (v : Addr) (s : State) : Accesses (pushRecords s.sp [hiByte v, loByte v]) s (s.pushAddr v) :=
  (push (hiByte v) s).trans (push (loByte v) (s.push (hiByte v)))

theorem pull (s : State) : Accesses (pullRecords s 1 s.sp) s s.pull.2 :=
  ⟨rfl, ⟨rfl, trivial⟩, rfl, (Bool.or_false _).symm⟩

theorem pullAddr (s : State) : Accesses (pullRecords s 2 s.sp) s s.pullAddr.2 :=
  ⟨rfl, ⟨rfl, rfl, trivial⟩, rfl, (Bool.or_false _).symm⟩

theorem returnFromVector (s : State) : Accesses (pullRecords s 3 s.sp) s s.returnFromVector := by
  rw [State.returnFromVector_spec]
  exact ⟨rfl, ⟨rfl, rfl, rfl, trivial⟩, rfl, (Bool.or_false _).symm⟩

/-- The three pushes leave the vector as it was, so its bytes are those held before (rule R61). -/
theorem enterVector (ret : Addr) (status : Byte) (s : State) :
    Accesses (pushRecords s.sp [hiByte ret, loByte ret, status]
      ++ [reads s State.vectorLo, reads s State.vectorHi]) s (s.enterVector ret status) := by
  obtain ⟨hlo, hhi⟩ := State.frameMem_vector ret status s.sp s.mem
  rw [State.enterVector_spec]
  exact ⟨rfl, ⟨hlo, hhi, trivial⟩, rfl, (Bool.or_true _).symm⟩

theorem resolve (m : MemMode) (s : State) : Accesses (pointerRecords m s) s (m.resolve s).2 := by
  cases m with
  | zp z | zpx z | zpy z | abs base | abx base | aby base => exact silent
  | izx z =>
    have hhi : zpPointerHi (z + s.x) = BitVec.ofNat 16 ((z.toNat + s.x.toNat + 1) % 256) := by
      rw [zpPointerHi_eq_ofNat, BitVec.toNat_add, Nat.mod_add_mod]
    rw [pointerRecords, ← zext16_add, ← hhi]
    exact readPair _ _ s
  | izy z | izp z =>
    rw [pointerRecords, ← zext16_eq_ofNat, ← zpPointerHi_eq_ofNat]
    exact readPair _ _ s

/-- The pointer reads leave what a later read shows. -/
theorem reads_resolve (m : MemMode) (s : State) (addr : Addr) : reads (m.resolve s).2 addr = reads s addr := by
  rw [reads, reads, m.resolve_mem]

theorem load (src : Source) (s : State) : Accesses (loadRecords src s) s (src.load s).2 := by
  cases src with
  | imm b => exact silent
  | mem m =>
    rw [loadRecords, ← reads_resolve]
    exact (resolve m s).trans (busRead _ _)

theorem store (m : MemMode) (v : Byte) (s : State) : Accesses (storeRecords m v s) s (m.store v s) :=
  (resolve m s).trans (busWrite (m.address s) v _)

/-- A read-modify-write of memory, where `g` is the new byte as a number. -/
theorem memModify (m : MemMode) {f : Byte → Byte → Byte × Byte} {g : Nat → Nat} (s : State)
    (h : ∀ v, (f v s.p).1 = BitVec.ofNat 8 (g v.toNat)) :
    Accesses (modifyRecords m g s) s (m.modify f s) := by
  rw [modifyRecords, ← h, ← reads_resolve, ← m.resolve_mem s]
  exact ((resolve m s).trans (readThenWrite _ _ _)).andSilent silent

theorem tsb (m : MemMode) (s : State) :
    Accesses (modifyRecords m (fun v => v ||| s.a.toNat) s) s (m.modify (Alu.tsb s.a) s) :=
  memModify m s fun v => Alu.tsb_fst s.a v s.p

theorem trb (m : MemMode) (s : State) :
    Accesses (modifyRecords m (fun v => v &&& (255 - s.a.toNat)) s) s (m.modify (Alu.trb s.a) s) :=
  memModify m s fun v => Alu.trb_fst s.a v s.p

theorem modify (t : RmwTarget) {f : Byte → Byte → Byte × Byte} {g : Nat → Nat} (s : State)
    (h : ∀ v, (f v s.p).1 = BitVec.ofNat 8 (g v.toNat)) :
    Accesses (rmwRecords t g s) s (t.modify f s) := by
  cases t with
  | acc => exact silent
  | mem m => exact memModify m s h

theorem jumpResolve (t : JumpTarget) (s : State) : Accesses (dataRecords (.jmp t) s) s (t.resolve s).2 := by
  cases t with
  | abs a => exact silent
  | ind a =>
    rw [dataRecords, ← add_one_eq_ofNat]
    exact readPair _ _ s
  | iax a =>
    have hhi : a + zext16 s.x + 1 = BitVec.ofNat 16 (a.toNat + s.x.toNat + 1) := by
      rw [add_zext16, BitVec.ofNat_add _ 1]
      rfl
    rw [dataRecords, ← add_zext16, ← hhi]
    exact readPair _ _ s

theorem resetMemoryBit (n : Nat) (z : Byte) (s : State) :
    Accesses (memoryBitRecords z n false s) s (s.resetMemoryBit n z) := by
  rw [memoryBitRecords, zeroPageRead, ← zext16_eq_ofNat, ← xor_ones_eq_not]
  exact readThenWrite _ _ s

theorem setMemoryBit (n : Nat) (z : Byte) (s : State) :
    Accesses (memoryBitRecords z n true s) s (s.setMemoryBit n z) := by
  rw [memoryBitRecords, zeroPageRead, ← zext16_eq_ofNat]
  exact readThenWrite _ _ s

theorem branchOnMemoryBit (n : Nat) (want : Bool) (z rel : Byte) (s : State) :
    Accesses [zeroPageRead z s] s (s.branchOnMemoryBit n want z rel) := by
  rw [zeroPageRead, ← zext16_eq_ofNat]
  exact (busRead (zext16 z) s).andSilent silent

theorem addWithCarry (m : Byte) (s : State) : Accesses [] s (s.addWithCarry m) := by
  cases h : s.flag .D with
  | true => rw [State.addWithCarry_set h]; exact silent
  | false => rw [State.addWithCarry_clear h]; exact silent

theorem subtractWithBorrow (m : Byte) (s : State) : Accesses [] s (s.subtractWithBorrow m) := by
  cases h : s.flag .D with
  | true => rw [State.subtractWithBorrow_set h]; exact silent
  | false => rw [State.subtractWithBorrow_clear h]; exact silent

theorem testBits (src : Source) (m : Byte) (s : State) : Accesses [] s (s.testBits src m) := by
  cases src <;> exact silent

end Accesses

/-! ### The operand bytes -/

theorem consumeAll_trace (bs : List Byte) (s : State) :
    (State.consumeAll bs s).trace = (operandRecords s.cursorPosition bs).reverse ++ s.trace := by
  induction bs generalizing s with
  | nil => rfl
  | cons b rest ih =>
    rw [State.consumeAll_cons, ih, operandRecords, List.reverse_cons, List.append_assoc]
    rfl

theorem replay_operandRecords (position : Nat) (bs : List Byte) (m : Memory) :
    replay (operandRecords position bs) m = m := by
  induction bs generalizing position with
  | nil => rfl
  | cons b rest ih => exact ih (position + 1)

theorem anyWrite_operandRecords (position : Nat) (bs : List Byte) :
    anyWrite (operandRecords position bs) = false := by
  induction bs generalizing position with
  | nil => rfl
  | cons b rest ih => exact ih (position + 1)

/-- The operand bytes of the instruction in flight, at most two, are those that memory holds at the cursor (log 14). -/
theorem accounts_operandRecords (s : State) :
    Accounts (operandRecords s.cursorPosition s.instructionInFlight.operandBytes) s.mem := by
  have hnext : s.cursorAddr + 1 = BitVec.ofNat 16 (s.cursorPosition + 1) := (BitVec.ofNat_add _ 1).symm
  rw [State.instructionInFlight, Decode.instrOf_operandBytes, hnext]
  generalize (Decode.instrOf _ _ _).length - 1 = count
  rcases count with _ | _ | n
  · exact trivial
  · exact ⟨rfl, trivial⟩
  · exact ⟨rfl, rfl, by rw [List.take_nil]; trivial⟩

theorem Accesses.consumeOperands (s : State) :
    Accesses (operandRecords s.cursorPosition s.instructionInFlight.operandBytes) s
      (State.consumeAll s.instructionInFlight.operandBytes s) where
  trace := consumeAll_trace _ s
  accounts := accounts_operandRecords s
  mem := by rw [State.consumeAll_mem, replay_operandRecords]
  dirty := by rw [State.consumeAll_dirty, anyWrite_operandRecords, Bool.or_false]

/-! ### Every handler -/

/-- Once its operand bytes are consumed, a reference handler makes the accesses its rule writes. -/
theorem exec_accesses (i : Instr) (s : State) :
    ∃ t, exec i s = .next t
      ∧ Accesses (dataRecords i (State.consumeAll i.operandBytes s)) (State.consumeAll i.operandBytes s) t := by
  cases i with
  | adc src => exact ⟨_, rfl, (Accesses.load src _).andSilent (.addWithCarry _ _)⟩
  | sbc src => exact ⟨_, rfl, (Accesses.load src _).andSilent (.subtractWithBorrow _ _)⟩
  | bit src => exact ⟨_, rfl, (Accesses.load src _).andSilent (.testBits src _ _)⟩
  | lda src | ldx src | ldy src | and src | eor src | ora src | cmp src | cpx src | cpy src =>
    exact ⟨_, rfl, (Accesses.load src _).andSilent .silent⟩
  | sta m | stx m | sty m | stz m => exact ⟨_, rfl, .store m _ _⟩
  | tsb m => exact ⟨_, rfl, .tsb m _⟩
  | trb m => exact ⟨_, rfl, .trb m _⟩
  | inc t => exact ⟨_, rfl, .modify t _ fun v => Alu.inc_fst v _⟩
  | dec t => exact ⟨_, rfl, .modify t _ fun v => Alu.dec_fst v _⟩
  | asl t | lsr t | rol t | ror t => exact ⟨_, rfl, .modify t _ fun _ => rfl⟩
  | rmb0 z | rmb1 z | rmb2 z | rmb3 z | rmb4 z | rmb5 z | rmb6 z | rmb7 z =>
    exact ⟨_, rfl, .resetMemoryBit _ z _⟩
  | smb0 z | smb1 z | smb2 z | smb3 z | smb4 z | smb5 z | smb6 z | smb7 z =>
    exact ⟨_, rfl, .setMemoryBit _ z _⟩
  | bbr0 z rel | bbr1 z rel | bbr2 z rel | bbr3 z rel | bbr4 z rel | bbr5 z rel | bbr6 z rel | bbr7 z rel
  | bbs0 z rel | bbs1 z rel | bbs2 z rel | bbs3 z rel | bbs4 z rel | bbs5 z rel | bbs6 z rel | bbs7 z rel =>
    exact ⟨_, rfl, .branchOnMemoryBit _ _ z rel _⟩
  | jmp t => exact ⟨_, rfl, (Accesses.jumpResolve t _).andSilent .silent⟩
  | jsr target => exact ⟨_, rfl, (Accesses.pushAddr _ _).andSilent .silent⟩
  | brk sig => exact ⟨_, rfl, (Accesses.enterVector _ _ _).andSilent .silent⟩
  | pha | php | phx | phy => exact ⟨_, rfl, .push _ _⟩
  | pla | plp | plx | ply => exact ⟨_, rfl, (Accesses.pull _).andSilent .silent⟩
  | rts => exact ⟨_, rfl, (Accesses.pullAddr _).andSilent .silent⟩
  | rti => exact ⟨_, rfl, .returnFromVector _⟩
  | bpl rel | bmi rel | bvc rel | bvs rel | bcc rel | bcs rel | bne rel | beq rel | bra rel
  | clc | sec | cli | sei | cld | sed | clv | inx | iny | dex | dey
  | tax | tay | tsx | txa | txs | tya | wai | stp | nop | unmapped op => exact ⟨_, rfl, .silent⟩

/-! ### The accesses after the operand bytes do not depend on the cursor -/

@[simp] theorem reads_consumeAll (bs : List Byte) (s : State) (addr : Addr) :
    reads (State.consumeAll bs s) addr = reads s addr := by
  simp [reads]

@[simp] theorem zeroPageRead_consumeAll (z : Byte) (bs : List Byte) (s : State) :
    zeroPageRead z (State.consumeAll bs s) = zeroPageRead z s :=
  reads_consumeAll bs s _

@[simp] theorem pointerRecords_consumeAll (m : MemMode) (bs : List Byte) (s : State) :
    pointerRecords m (State.consumeAll bs s) = pointerRecords m s := by
  cases m <;> simp [pointerRecords]

@[simp] theorem loadRecords_consumeAll (src : Source) (bs : List Byte) (s : State) :
    loadRecords src (State.consumeAll bs s) = loadRecords src s := by
  cases src <;> simp [loadRecords]

@[simp] theorem storeRecords_consumeAll (m : MemMode) (v : Byte) (bs : List Byte) (s : State) :
    storeRecords m v (State.consumeAll bs s) = storeRecords m v s := by
  simp [storeRecords]

@[simp] theorem modifyRecords_consumeAll (m : MemMode) (g : Nat → Nat) (bs : List Byte) (s : State) :
    modifyRecords m g (State.consumeAll bs s) = modifyRecords m g s := by
  simp [modifyRecords]

@[simp] theorem rmwRecords_consumeAll (t : RmwTarget) (g : Nat → Nat) (bs : List Byte) (s : State) :
    rmwRecords t g (State.consumeAll bs s) = rmwRecords t g s := by
  cases t <;> simp [rmwRecords]

@[simp] theorem memoryBitRecords_consumeAll (z : Byte) (n : Nat) (b : Bool) (bs : List Byte) (s : State) :
    memoryBitRecords z n b (State.consumeAll bs s) = memoryBitRecords z n b s := by
  simp [memoryBitRecords]

@[simp] theorem pullRecords_consumeAll (n : Nat) (sp : Byte) (bs : List Byte) (s : State) :
    pullRecords (State.consumeAll bs s) n sp = pullRecords s n sp := by
  induction n generalizing sp with
  | zero => rfl
  | succ n ih => simp [pullRecords, ih]

/-- Consuming operand bytes leaves what the accesses after them depend on. -/
theorem dataRecords_consumeAll (i : Instr) (bs : List Byte) (s : State) :
    dataRecords i (State.consumeAll bs s) = dataRecords i s := by
  cases i with
  | jmp t => cases t <;> simp [dataRecords]
  | _ => simp [dataRecords, State.flag]

/-! ### The settled statements -/

/-- Settles O17: the records of the operand bytes, then those of the computation, which do not depend on the cursor. -/
theorem noDummyAccesses : Obligations.NoDummyAccesses := by
  intro i s
  obtain ⟨t, ht, h⟩ := exec_accesses i s
  refine ⟨t, ht, ?_⟩
  rw [h.trace, consumeAll_trace, dataRecords_consumeAll, handlerRecords, List.reverse_append, List.append_assoc,
    State.cursorPosition]

/-- Settles O16: the operand bytes of the instruction in flight are what memory holds at the cursor, so their records
account for it too. -/
theorem traceAccountsForMemory : Obligations.TraceAccountsForMemory := by
  intro s t hexec
  obtain ⟨u, hu, h⟩ := exec_accesses s.instructionInFlight s
  cases hexec.symm.trans hu
  obtain ⟨htrace, haccounts, hmem, hdirty⟩ := (Accesses.consumeOperands s).trans h
  exact ⟨_, htrace, haccounts, hmem, hdirty⟩

end Claims
end Sys2Proof
end

section
/-! PROOFS. Decoding and encoding (O1, O2, O3, O4): one direction of the inverse is the round trip of Laws/PerInstr.lean,
the other follows the decoder, and the fields of the bit instructions are read off the opcode lists. -/

namespace Sys2Proof

/-! ### The two directions of the round trip -/

namespace Laws.RoundTrip

/-- The round trip of every instruction (rules R75 to R88). -/
theorem decode_encode_append (i : Instr) : Statement i := by
  cases i
  exacts [brk _, ora _, unmapped _, tsb _, asl _, rmb0 _, php, bbr0 _ _, bpl _, trb _, rmb1 _, clc, inc _,
    bbr1 _ _, jsr _, and _, bit _, rol _, rmb2 _, plp, bbr2 _ _, bmi _, rmb3 _, sec, dec _, bbr3 _ _, rti, eor _,
    lsr _, rmb4 _, pha, jmp _, bbr4 _ _, bvc _, rmb5 _, cli, phy, bbr5 _ _, rts, adc _, stz _, ror _, rmb6 _, pla,
    bbr6 _ _, bvs _, rmb7 _, sei, ply, bbr7 _ _, bra _, sta _, sty _, stx _, smb0 _, dey, txa, bbs0 _ _, bcc _,
    smb1 _, tya, txs, bbs1 _ _, ldy _, lda _, ldx _, smb2 _, tay, tax, bbs2 _ _, bcs _, smb3 _, clv, tsx,
    bbs3 _ _, cpy _, cmp _, smb4 _, iny, dex, wai, bbs4 _ _, bne _, smb5 _, cld, phx, stp, bbs5 _ _, cpx _, sbc _,
    smb6 _, inx, nop, bbs6 _ _, beq _, smb7 _, sed, plx, bbs7 _ _]

end Laws.RoundTrip

/-- An instruction has at most two operand bytes (rule R78). -/
theorem Instr.operandCount_le (i : Instr) : i.length - 1 ≤ 2 :=
  Nat.sub_le_of_le_add i.mode.length_le

/-- The opcode byte of an instruction is one that its rule lists, under its mode (files 41 to 44). -/
theorem Instr.mem_opcodes {i : Instr} {op : Byte} (h : i.opcode = some op) : (i.mode, op) ∈ i.opcodes := by
  obtain ⟨before, after, hlist, -⟩ := List.lookup_eq_some_iff.1 h
  rw [hlist]
  exact List.mem_append_right before List.mem_cons_self

/-- Encoding the instruction that a byte starts gives the byte and the operand bytes it takes (rules R75 and R77). -/
theorem encode_instrOf (op b1 b2 : Byte) :
    encode (Decode.instrOf op b1 b2) = op :: [b1, b2].take ((Decode.instrOf op b1 b2).length - 1) := by
  rw [encode, Decode.instrOf_opcode, Decode.instrOf_operandBytes]

/-- All that decoding a list that starts with `op` can answer (rule R88). -/
theorem decode_cons_eq_ok {op : Byte} {tail rest : List Byte} {i : Instr} (h : decode (op :: tail) = .ok i rest) :
    i = Decode.instrOf op (tail.getD 0 0) (tail.getD 1 0) ∧ i.length - 1 ≤ tail.length
      ∧ rest = tail.drop (i.length - 1) := by
  simp only [decode] at h
  split at h
  next hl =>
    cases h
    exact ⟨rfl, hl, rfl⟩
  next => cases h

/-- The first bytes of a list, at most two, by the way the decoder reads them. -/
theorem take_getD : ∀ {tail : List Byte} {n : Nat}, n ≤ 2 → n ≤ tail.length →
    [tail.getD 0 0, tail.getD 1 0].take n = tail.take n
  | _, 0, _, _ => rfl
  | _ :: _, 1, _, _ => rfl
  | _ :: _ :: _, 2, _, _ => rfl

/-- What decodes is a well-formed instruction, and the list is its encoding and the rest (rules R75, R82 and R88). -/
theorem wellFormed_and_encode_of_decode {bs rest : List Byte} {i : Instr} (h : decode bs = .ok i rest) :
    i.WellFormed ∧ bs = encode i ++ rest := by
  cases bs with
  | nil => cases h
  | cons op tail =>
    obtain ⟨hi, hl, rfl⟩ := decode_cons_eq_ok h
    have hencode : encode i = op :: tail.take (i.length - 1) := by
      rw [← take_getD i.operandCount_le hl, hi, encode_instrOf]
    exact ⟨hi ▸ Decode.instrOf_wellFormed op _ _, by rw [hencode, List.cons_append, List.take_append_drop]⟩

/-! ### The mapped set (rules R83 and R84) -/

namespace Decode

theorem mapped_eq_false {op : Byte} : Config.mapped op = false ↔ op ∈ Config.unmappedBytes := by
  rw [Config.mapped, Bool.not_eq_false', List.contains_iff_mem]

/-- A byte starts the unmapped no-op exactly where rule R83 lists it: elsewhere that term is not well-formed. -/
theorem instrOf_eq_unmapped_iff (op b1 b2 : Byte) :
    instrOf op b1 b2 = .unmapped op ↔ op ∈ Config.unmappedBytes := by
  rw [← mapped_eq_false]
  constructor
  · intro h
    have hok : (Instr.unmapped op).unmappedOk = true := h ▸ (instrOf_wellFormed op b1 b2).2
    simpa [Instr.unmappedOk] using hok
  · intro h
    simp [instrOf, h]

end Decode

/-! ### The fields of the bit instructions (rule R89) -/

namespace Claims

/-- The fields `opcode[6:4]`, `opcode[3:0]` and `opcode[7]` where the low digit is one of the bit instructions'. -/
def opcodeFields (op : Byte) : Option (Nat × Nat × Nat) :=
  if op.toNat % 16 = 0x7 ∨ op.toNat % 16 = 0xF then
    some (op.toNat / 16 % 8, op.toNat % 16, op.toNat / 128)
  else none

theorem opcodeFields_eq_some {op : Byte} {n low pol : Nat} :
    opcodeFields op = some (n, low, pol)
      ↔ (low = 0x7 ∨ low = 0xF) ∧ op.toNat % 16 = low ∧ op.toNat / 16 % 8 = n ∧ op.toNat / 128 = pol := by
  rw [opcodeFields, Option.ite_none_right_eq_some, Option.some.injEq, Prod.mk.injEq, Prod.mk.injEq]
  constructor
  · rintro ⟨hlow, hn, rfl, hpol⟩
    exact ⟨hlow, rfl, hn, hpol⟩
  · rintro ⟨hlow, rfl, hn, hpol⟩
    exact ⟨hlow, hn, rfl, hpol⟩

theorem opcodeFields_unmapped : ∀ op ∈ Config.unmappedBytes, opcodeFields op = none := by decide

/-- The fields a constructor stands for are those of each byte that its own rule lists (files 41 to 44). -/
theorem bitFields_eq_of_mem_opcodes {i : Instr} (hi : i.unmappedOk = true) :
    ∀ e ∈ i.opcodes, bitFields i = opcodeFields e.2 := by
  cases i with
  | unmapped op =>
    have hop : op ∈ Config.unmappedBytes := Decode.mapped_eq_false.1 (by simpa [Instr.unmappedOk] using hi)
    simpa [Instr.opcodes, bitFields] using (opcodeFields_unmapped op hop).symm
  | _ => exact of_decide_eq_true rfl

/-- So the fields of the instruction that a byte starts are that byte's. -/
theorem bitFields_instrOf (op b1 b2 : Byte) : bitFields (Decode.instrOf op b1 b2) = opcodeFields op :=
  bitFields_eq_of_mem_opcodes (Decode.instrOf_wellFormed op b1 b2).2 _
    (Instr.mem_opcodes (Decode.instrOf_opcode op b1 b2))

/-! ### The settled statements -/

/-- Settles O2: from the decoder on the one side, from the round trip of each instruction on the other. -/
theorem decodeInvertsEncode : Obligations.DecodeInvertsEncode := by
  intro bs i rest
  refine ⟨wellFormed_and_encode_of_decode, ?_⟩
  rintro ⟨hi, rfl⟩
  exact Laws.RoundTrip.decode_encode_append i hi rest

/-- Settles O3: with two bytes after it no opcode byte wants for operands. -/
theorem everyByteIsAnInstruction : Obligations.EveryByteIsAnInstruction := by
  intro op b1 b2 rest
  let i := Decode.instrOf op b1 b2
  have hpos : 1 ≤ i.length := i.mode.length_pos
  have hle : i.length ≤ 3 := i.mode.length_le
  have hdrop : (op :: b1 :: b2 :: rest).drop i.length = (b1 :: b2 :: rest).drop (i.length - 1) :=
    List.drop_cons hpos
  have hunmapped := Decode.instrOf_eq_unmapped_iff op b1 b2
  refine ⟨i, ?_, Decode.instrOf_wellFormed op b1 b2, hpos, hle, hunmapped, fun h => ?_⟩
  · rw [hdrop]
    exact decode_cons rfl (i.operandCount_le.trans (Nat.le_add_left 2 rest.length))
  · exact congrArg Instr.length (hunmapped.2 h)

/-- Settles O4: the fields are read off the opcode lists. -/
theorem bitInstructionFields : Obligations.BitInstructionFields := by
  intro op b1 b2 n low pol
  rw [bitFields_instrOf, opcodeFields_eq_some]

/-- Settles O1: by running the decoder. -/
theorem specWordsDecode : Obligations.SpecWordsDecode := by
  unfold Obligations.SpecWordsDecode
  decide

end Claims

end Sys2Proof
end

section
/-! PROOFS. Operands, branches and program-counter classes (O6, O15, O60): the address of each form as the spec writes it, the
operand byte of a branch, and the fields that a handler of each class leaves alone. -/

namespace Sys2Proof

open Machine

/-! ### Effective addresses, as numbers (rules R78 to R80) -/

/-- A pointer's high byte, where the pointer is indexed within page zero (rule R79). -/
theorem zpPointerHi_add (b c : Byte) :
    zpPointerHi (b + c) = BitVec.ofNat 16 ((b.toNat + c.toNat + 1) % 256) := by
  rw [zpPointerHi_eq_ofNat, BitVec.toNat_add, Nat.mod_add_mod]

/-- The address after an indexed absolute one (rule R80). -/
theorem add_zext16_add_one (a : Addr) (b : Byte) :
    a + zext16 b + 1 = BitVec.ofNat 16 (a.toNat + b.toNat + 1) := by
  rw [add_zext16, BitVec.ofNat_add _ 1]
  rfl

namespace MemMode

theorem address_zp (z : Byte) (s : State) : (zp z).address s = BitVec.ofNat 16 z.toNat :=
  zext16_eq_ofNat z

theorem address_zpx (z : Byte) (s : State) :
    (zpx z).address s = BitVec.ofNat 16 ((z.toNat + s.x.toNat) % 256) :=
  zext16_add z s.x

theorem address_zpy (z : Byte) (s : State) :
    (zpy z).address s = BitVec.ofNat 16 ((z.toNat + s.y.toNat) % 256) :=
  zext16_add z s.y

theorem address_abx (base : Addr) (s : State) :
    (abx base).address s = BitVec.ofNat 16 (base.toNat + s.x.toNat) :=
  add_zext16 base s.x

theorem address_aby (base : Addr) (s : State) :
    (aby base).address s = BitVec.ofNat 16 (base.toNat + s.y.toNat) :=
  add_zext16 base s.y

theorem address_izx (z : Byte) (s : State) :
    (izx z).address s = word (s.mem.read (BitVec.ofNat 16 ((z.toNat + s.x.toNat) % 256)))
      (s.mem.read (BitVec.ofNat 16 ((z.toNat + s.x.toNat + 1) % 256))) := by
  rw [← zext16_add, ← zpPointerHi_add]
  rfl

theorem address_izp (z : Byte) (s : State) :
    (izp z).address s = word (s.mem.read (BitVec.ofNat 16 z.toNat))
      (s.mem.read (BitVec.ofNat 16 ((z.toNat + 1) % 256))) := by
  rw [← zext16_eq_ofNat, ← zpPointerHi_eq_ofNat]
  rfl

/-- The pointer of izy is that of izp. -/
theorem address_izy (z : Byte) (s : State) :
    (izy z).address s = BitVec.ofNat 16 (((izp z).address s).toNat + s.y.toNat) :=
  add_zext16 ((izp z).address s) s.y

end MemMode

namespace JumpTarget

theorem address_ind (base : Addr) (s : State) :
    (ind base).address s = word (s.mem.read base) (s.mem.read (BitVec.ofNat 16 (base.toNat + 1))) := by
  rw [← add_one_eq_ofNat]
  rfl

theorem address_iax (base : Addr) (s : State) :
    (iax base).address s = word (s.mem.read (BitVec.ofNat 16 (base.toNat + s.x.toNat)))
      (s.mem.read (BitVec.ofNat 16 (base.toNat + s.x.toNat + 1))) := by
  rw [← add_zext16, ← add_zext16_add_one]
  rfl

end JumpTarget

/-! ### Branches (rules R81, R112 and R113) -/

namespace Assembly

/-- The target is the next instruction's address and the displacement, mod 2^16. -/
theorem branchTarget_eq_add (pc : Addr) (length : Nat) (rel : Byte) :
    branchTarget pc length rel = pc + BitVec.ofNat 16 length + BitVec.ofInt 16 (int8 rel) := by
  rw [branchTarget, BitVec.ofInt_add, BitVec.ofInt_add, BitVec.ofInt_natCast, BitVec.ofInt_natCast,
    BitVec.ofNat_toNat, BitVec.setWidth_eq]

/-- A displacement in a byte's range is that of exactly one byte (rule R10). -/
theorem ofInt_eq_iff_eq_int8 {d : Int} {rel : Byte} :
    (-128 ≤ d ∧ d ≤ 127) ∧ BitVec.ofInt 8 d = rel ↔ d = int8 rel := by
  constructor
  · rintro ⟨⟨hlo, hhi⟩, rfl⟩
    exact (BitVec.toInt_ofInt_eq_self (by decide) hlo (by omega)).symm
  · rintro rfl
    exact ⟨int8_range rel, BitVec.ofInt_toInt⟩

/-- Every displacement of a byte is a 16-bit one. -/
theorem toInt_ofInt_int8 (rel : Byte) : (BitVec.ofInt 16 (int8 rel)).toInt = int8 rel := by
  obtain ⟨hlo, hhi⟩ := int8_range rel
  exact BitVec.toInt_ofInt_eq_self (by decide) (by omega) (by omega)

/-- The operand byte and the target determine each other. -/
theorem branchOperand_eq_some_iff (pc : Addr) (length : Nat) (rel : Byte) (target : Addr) :
    branchOperand pc length target = some rel ↔ branchTarget pc length rel = target := by
  calc branchOperand pc length target = some rel
    _ ↔ (target - (pc + BitVec.ofNat 16 length)).toInt = int8 rel := by
        rw [branchOperand, Option.ite_none_right_eq_some, Option.some.injEq, ofInt_eq_iff_eq_int8]
    _ ↔ target - (pc + BitVec.ofNat 16 length) = BitVec.ofInt 16 (int8 rel) := by
        rw [← BitVec.toInt_inj, toInt_ofInt_int8]
    _ ↔ branchTarget pc length rel = target := by
        rw [sub_eq_iff_eq_add', branchTarget_eq_add, eq_comm]

/-- RESOLVE_PC goes to the target where pc still equals the snapshot. -/
theorem resolvePc_pc_eq_branchTarget {s : State} {rel : Byte} (hpc : s.pc = s.pcAtFetch)
    (hrel : s.branchDisplacement = int8 rel) :
    s.resolvePc.pc = branchTarget s.pc s.decodeOffset rel := by
  rw [branchTarget_eq_add, ← hrel, State.resolvePc, State.advancedPc, if_pos hpc, BitVec.ofInt_add,
    BitVec.ofInt_natCast, BitVec.ofNat_toNat, BitVec.setWidth_eq, BitVec.ofNat_add, BitVec.ofNat_toNat,
    BitVec.setWidth_eq]

end Assembly

/-! ### Program-counter classes (rule R87) -/

namespace Machine

/-- What an instruction of a class does to the fields that rule R87 tells the classes apart by. -/
structure ActsInClass (c : PcClass) (s t : State) : Prop where
  pc : c ≠ .absolute → t.pc = s.pc
  branchDisplacement : c ≠ .relative → t.branchDisplacement = s.branchDisplacement
  wait : c ≠ .wait → t.wait = s.wait
  phase : c ≠ .halt → t.phase = s.phase
  setsWait : c = .wait → t.wait = true
  halts : c = .halt → t.phase = .haltFlush

namespace ActsInClass

/-- An update of none of the four fields. -/
theorem sequential {s t : State} (hpc : t.pc = s.pc := by rfl)
    (hd : t.branchDisplacement = s.branchDisplacement := by rfl) (hw : t.wait = s.wait := by rfl)
    (hp : t.phase = s.phase := by rfl) : ActsInClass .sequential s t :=
  ⟨fun _ => hpc, fun _ => hd, fun _ => hw, fun _ => hp, nofun, nofun⟩

/-- An absolute transfer, which leaves the displacement. -/
theorem absolute {s t : State} (hd : t.branchDisplacement = s.branchDisplacement := by rfl)
    (hw : t.wait = s.wait := by rfl) (hp : t.phase = s.phase := by rfl) : ActsInClass .absolute s t :=
  ⟨absurd rfl, fun _ => hd, fun _ => hw, fun _ => hp, nofun, nofun⟩

/-- A relative transfer, which leaves pc. -/
theorem relative {s t : State} (hpc : t.pc = s.pc := by rfl) (hw : t.wait = s.wait := by rfl)
    (hp : t.phase = s.phase := by rfl) : ActsInClass .relative s t :=
  ⟨fun _ => hpc, absurd rfl, fun _ => hw, fun _ => hp, nofun, nofun⟩

/-- What leaves the four fields alone may come before an action of any class. -/
theorem after {c : PcClass} {s t u : State} (k : ActsInClass c t u) (h : ActsInClass .sequential s t) :
    ActsInClass c s u where
  pc hc := (k.pc hc).trans (h.pc nofun)
  branchDisplacement hc := (k.branchDisplacement hc).trans (h.branchDisplacement nofun)
  wait hc := (k.wait hc).trans (h.wait nofun)
  phase hc := (k.phase hc).trans (h.phase nofun)
  setsWait := k.setsWait
  halts := k.halts

theorem consumeAll (bs : List Byte) (s : State) : ActsInClass .sequential s (State.consumeAll bs s) :=
  sequential (by simp) (by simp) (by simp) (by simp)

theorem load (src : Source) (s : State) : ActsInClass .sequential s (src.load s).2 :=
  sequential (by simp) (by simp) (by simp) (by simp)

theorem store (m : MemMode) (v : Byte) (s : State) : ActsInClass .sequential s (m.store v s) :=
  sequential (by simp) (by simp) (by simp) (by simp)

theorem memModify (m : MemMode) (f : Byte → Byte → Byte × Byte) (s : State) :
    ActsInClass .sequential s (m.modify f s) :=
  sequential (by simp) (by simp) (by simp) (by simp)

theorem modify (t : RmwTarget) (f : Byte → Byte → Byte × Byte) (s : State) :
    ActsInClass .sequential s (t.modify f s) := by
  cases t with
  | acc => exact sequential
  | mem m => exact memModify m f s

theorem addWithCarry (m : Byte) (s : State) : ActsInClass .sequential s (s.addWithCarry m) := by
  cases h : s.flag .D with
  | true => rw [State.addWithCarry_set h]; exact sequential
  | false => rw [State.addWithCarry_clear h]; exact sequential

theorem subtractWithBorrow (m : Byte) (s : State) : ActsInClass .sequential s (s.subtractWithBorrow m) := by
  cases h : s.flag .D with
  | true => rw [State.subtractWithBorrow_set h]; exact sequential
  | false => rw [State.subtractWithBorrow_clear h]; exact sequential

theorem testBits (src : Source) (m : Byte) (s : State) : ActsInClass .sequential s (s.testBits src m) := by
  cases src <;> exact sequential

theorem jump (t : JumpTarget) (target : Addr) (s : State) :
    ActsInClass .absolute s ((t.resolve s).2.setPc target) :=
  absolute (by simp) (by simp) (by simp)

/-- Taking the vector, and then writing a flag (rule R244). -/
theorem enterVector (ret : Addr) (status : Byte) (f : Flag) (b : Bool) (s : State) :
    ActsInClass .absolute s ((s.enterVector ret status).setFlag f b) := by
  rw [State.enterVector_spec]
  exact absolute

theorem returnFromVector (s : State) : ActsInClass .absolute s s.returnFromVector := by
  rw [State.returnFromVector_spec]
  exact absolute

end ActsInClass

/-- Once its operand bytes are consumed, every reference handler acts as its class says. -/
theorem exec_actsInClass (i : Instr) (s : State) :
    ∃ t, exec i s = .next t ∧ ActsInClass i.pcClass (State.consumeAll i.operandBytes s) t := by
  cases i with
  | adc src => exact ⟨_, rfl, .after (.addWithCarry _ _) (.load src _)⟩
  | sbc src => exact ⟨_, rfl, .after (.subtractWithBorrow _ _) (.load src _)⟩
  | bit src => exact ⟨_, rfl, .after (.testBits src _ _) (.load src _)⟩
  | lda src | ldx src | ldy src | and src | eor src | ora src | cmp src | cpx src | cpy src =>
    exact ⟨_, rfl, .after .sequential (.load src _)⟩
  | sta m | stx m | sty m | stz m => exact ⟨_, rfl, .store m _ _⟩
  | tsb m | trb m => exact ⟨_, rfl, .memModify m _ _⟩
  | asl t | lsr t | rol t | ror t | inc t | dec t => exact ⟨_, rfl, .modify t _ _⟩
  | bpl rel | bmi rel | bvc rel | bvs rel | bcc rel | bcs rel | bne rel | beq rel | bra rel
  | bbr0 z rel | bbr1 z rel | bbr2 z rel | bbr3 z rel | bbr4 z rel | bbr5 z rel | bbr6 z rel | bbr7 z rel
  | bbs0 z rel | bbs1 z rel | bbs2 z rel | bbs3 z rel | bbs4 z rel | bbs5 z rel | bbs6 z rel | bbs7 z rel =>
    exact ⟨_, rfl, .relative⟩
  | jmp t => exact ⟨_, rfl, .jump t _ _⟩
  | jsr _ | rts => exact ⟨_, rfl, .absolute⟩
  | rti => exact ⟨_, rfl, .returnFromVector _⟩
  | brk sig => exact ⟨_, rfl, .enterVector _ _ .D false _⟩
  | wai => exact ⟨_, rfl, fun _ => rfl, fun _ => rfl, absurd rfl, fun _ => rfl, fun _ => rfl, nofun⟩
  | stp => exact ⟨_, rfl, fun _ => rfl, fun _ => rfl, fun _ => rfl, absurd rfl, nofun, fun _ => rfl⟩
  | rmb0 z | rmb1 z | rmb2 z | rmb3 z | rmb4 z | rmb5 z | rmb6 z | rmb7 z
  | smb0 z | smb1 z | smb2 z | smb3 z | smb4 z | smb5 z | smb6 z | smb7 z
  | pha | php | phx | phy | pla | plp | plx | ply | clc | sec | cli | sei | cld | sed | clv
  | inx | iny | dex | dey | tax | tay | tsx | txa | txs | tya | nop | unmapped op =>
    exact ⟨_, rfl, .sequential⟩

end Machine

/-! ### The settled statements -/

namespace Claims

/-- Settles O6: each mode's address by its lemma, the operand values from the address. -/
theorem effectiveAddresses : Obligations.EffectiveAddresses := by
  intro s z base
  exact ⟨MemMode.address_zp z s, MemMode.address_zpx z s, MemMode.address_zpy z s, rfl,
    MemMode.address_abx base s, MemMode.address_aby base s, MemMode.address_izx z s,
    MemMode.address_izp z s ▸ MemMode.address_izy z s, MemMode.address_izp z s, rfl,
    JumpTarget.address_ind base s, JumpTarget.address_iax base s, rfl, rfl,
    fun m => ⟨Source.value_mem m s, rfl⟩⟩

/-- Settles O15: the operand bytes move the cursor alone, and the computation acts as the class says. -/
theorem handlersKeepPcClass : Obligations.HandlersKeepPcClass := by
  intro i s t hexec
  obtain ⟨u, hu, hclass⟩ := exec_actsInClass i s
  cases hexec.symm.trans hu
  obtain ⟨hpc, hdisplacement, hwait, hphase, hsets, hhalts⟩ := hclass.after (.consumeAll i.operandBytes s)
  exact ⟨hpc, hdisplacement, hwait, hphase, hsets, hhalts⟩

/-- Settles O60: both are the next instruction's address and the displacement, mod 2^16. -/
theorem branchOperandAndTarget : Obligations.BranchOperandAndTarget := by
  intro pc length rel target
  refine ⟨Assembly.branchOperand_eq_some_iff pc length rel target, ?_⟩
  rintro s rfl hsnapshot rfl hrel
  exact Assembly.resolvePc_pc_eq_branchTarget hsnapshot.symm hrel

end Claims

end Sys2Proof
end

section
/-! PROOFS. The handler contract (O14): what lies outside every handler's reach, that no handler reads the request, and
the same of handler programs, action by action. -/

namespace Sys2Proof

open Machine

/-! ### No operation reads the request (rule R111) -/

/-- The state with another value of the request. -/
def Machine.State.withRequest (b : Bool) (s : State) : State := { s with interruptPending := b }

namespace MemMode

theorem resolve_withRequest (m : MemMode) (b : Bool) (s : State) :
    m.resolve (s.withRequest b) = ((m.resolve s).1, (m.resolve s).2.withRequest b) := by
  cases m <;> rfl

theorem store_withRequest (m : MemMode) (v : Byte) (b : Bool) (s : State) :
    m.store v (s.withRequest b) = (m.store v s).withRequest b := by
  rw [store, resolve_withRequest]
  rfl

theorem modify_withRequest (m : MemMode) (f : Byte → Byte → Byte × Byte) (b : Bool) (s : State) :
    m.modify f (s.withRequest b) = (m.modify f s).withRequest b := by
  rw [modify, resolve_withRequest]
  rfl

end MemMode

theorem Source.load_withRequest (src : Source) (b : Bool) (s : State) :
    src.load (s.withRequest b) = ((src.load s).1, (src.load s).2.withRequest b) := by
  cases src with
  | imm v => rfl
  | mem m =>
    rw [load, m.resolve_withRequest]
    rfl

theorem RmwTarget.modify_withRequest (t : RmwTarget) (f : Byte → Byte → Byte × Byte) (b : Bool) (s : State) :
    t.modify f (s.withRequest b) = (t.modify f s).withRequest b := by
  cases t with
  | acc => rfl
  | mem m => exact m.modify_withRequest f b s

theorem JumpTarget.resolve_withRequest (t : JumpTarget) (b : Bool) (s : State) :
    t.resolve (s.withRequest b) = ((t.resolve s).1, (t.resolve s).2.withRequest b) := by
  cases t <;> rfl

namespace Machine

namespace State

theorem consumeAll_withRequest (bs : List Byte) (b : Bool) (s : State) :
    consumeAll bs (s.withRequest b) = (consumeAll bs s).withRequest b := by
  induction bs generalizing s with
  | nil => rfl
  | cons v rest ih => exact ih (s.consume v)

theorem addWithCarry_withRequest (m : Byte) (b : Bool) (s : State) :
    (s.withRequest b).addWithCarry m = (s.addWithCarry m).withRequest b := by
  cases h : s.flag .D with
  | true => rw [addWithCarry_set h, addWithCarry_set (s := s.withRequest b) h]; rfl
  | false => rw [addWithCarry_clear h, addWithCarry_clear (s := s.withRequest b) h]; rfl

theorem subtractWithBorrow_withRequest (m : Byte) (b : Bool) (s : State) :
    (s.withRequest b).subtractWithBorrow m = (s.subtractWithBorrow m).withRequest b := by
  cases h : s.flag .D with
  | true => rw [subtractWithBorrow_set h, subtractWithBorrow_set (s := s.withRequest b) h]; rfl
  | false => rw [subtractWithBorrow_clear h, subtractWithBorrow_clear (s := s.withRequest b) h]; rfl

theorem testBits_withRequest (src : Source) (m : Byte) (b : Bool) (s : State) :
    (s.withRequest b).testBits src m = (s.testBits src m).withRequest b := by
  cases src <;> rfl

end State

/-! ### What no handler writes (rule R111) -/

/-- The fields outside every handler's reach are as before. -/
structure KeepsOutside (s t : State) : Prop where
  pcAtFetch : t.pcAtFetch = s.pcAtFetch := by rfl
  currentOpcode : t.currentOpcode = s.currentOpcode := by rfl
  interruptPending : t.interruptPending = s.interruptPending := by rfl
  icState : t.icState = s.icState := by rfl
  device : t.device = s.device := by rfl
  deviceCalls : t.deviceCalls = s.deviceCalls := by rfl

namespace KeepsOutside

theorem trans {s t u : State} (h : KeepsOutside s t) (k : KeepsOutside t u) : KeepsOutside s u where
  pcAtFetch := k.pcAtFetch.trans h.pcAtFetch
  currentOpcode := k.currentOpcode.trans h.currentOpcode
  interruptPending := k.interruptPending.trans h.interruptPending
  icState := k.icState.trans h.icState
  device := k.device.trans h.device
  deviceCalls := k.deviceCalls.trans h.deviceCalls

theorem consumeAll (bs : List Byte) (s : State) : KeepsOutside s (State.consumeAll bs s) := by
  constructor <;> simp

theorem load (src : Source) (s : State) : KeepsOutside s (src.load s).2 := by
  constructor <;> simp

theorem jumpResolve (t : JumpTarget) (s : State) : KeepsOutside s (t.resolve s).2 := by
  constructor <;> simp

theorem store (m : MemMode) (v : Byte) (s : State) : KeepsOutside s (m.store v s) := by
  constructor <;> simp

theorem memModify (m : MemMode) (f : Byte → Byte → Byte × Byte) (s : State) : KeepsOutside s (m.modify f s) := by
  constructor <;> simp

theorem modify (t : RmwTarget) (f : Byte → Byte → Byte × Byte) (s : State) : KeepsOutside s (t.modify f s) := by
  cases t with
  | acc => exact {}
  | mem m => exact memModify m f s

theorem addWithCarry (m : Byte) (s : State) : KeepsOutside s (s.addWithCarry m) := by
  cases h : s.flag .D with
  | true => rw [State.addWithCarry_set h]; exact {}
  | false => rw [State.addWithCarry_clear h]; exact {}

theorem subtractWithBorrow (m : Byte) (s : State) : KeepsOutside s (s.subtractWithBorrow m) := by
  cases h : s.flag .D with
  | true => rw [State.subtractWithBorrow_set h]; exact {}
  | false => rw [State.subtractWithBorrow_clear h]; exact {}

theorem testBits (src : Source) (m : Byte) (s : State) : KeepsOutside s (s.testBits src m) := by
  cases src <;> exact {}

theorem push (v : Byte) (s : State) : KeepsOutside s (s.push v) := {}

theorem pushAddr (v : Addr) (s : State) : KeepsOutside s (s.pushAddr v) :=
  (push (hiByte v) s).trans (push (loByte v) _)

theorem pull (s : State) : KeepsOutside s s.pull.2 := {}

theorem pullAddr (s : State) : KeepsOutside s s.pullAddr.2 :=
  (pull s).trans (pull s.pull.2)

theorem readThenWrite (a b : Addr) (v : Byte) (s : State) : KeepsOutside s ((s.busRead a).2.busWrite b v) := {}

theorem branchOnMemoryBit (n : Nat) (want : Bool) (z rel : Byte) (s : State) :
    KeepsOutside s (s.branchOnMemoryBit n want z rel) := {}

/-- Taking the vector, and then writing a flag (rule R244). -/
theorem enterVector (ret : Addr) (status : Byte) (f : Flag) (b : Bool) (s : State) :
    KeepsOutside s ((s.enterVector ret status).setFlag f b) := by
  rw [State.enterVector_spec]
  exact {}

theorem returnFromVector (s : State) : KeepsOutside s s.returnFromVector := by
  rw [State.returnFromVector_spec]
  exact {}

end KeepsOutside

/-- A handler that completes, writes no field outside its reach and does not read the request: the request's value is
carried over and changes nothing else. -/
def Discreet (handler : State → Out) : Prop :=
  ∀ s, ∃ t, handler s = .next t ∧ KeepsOutside s t ∧ ∀ b, handler (s.withRequest b) = .next (t.withRequest b)

/-- Consuming operand bytes is discreet, so a reference handler is where its computation is. -/
theorem withOperands_discreet {bs : List Byte} {compute : State → State}
    (hkeeps : ∀ s, KeepsOutside s (compute s))
    (hrequest : ∀ b s, compute (s.withRequest b) = (compute s).withRequest b) :
    Discreet fun s => State.withOperands bs s compute := by
  refine fun s => ⟨_, rfl, (KeepsOutside.consumeAll bs s).trans (hkeeps _), fun b => ?_⟩
  dsimp only
  rw [State.withOperands_eq, State.consumeAll_withRequest, hrequest]

/-- So is one that loads its operand and then does something discreet with it (rule R140). -/
theorem loadThen_discreet (src : Source) {next : Byte → State → State}
    (hkeeps : ∀ v u, KeepsOutside u (next v u))
    (hrequest : ∀ v b u, next v (u.withRequest b) = (next v u).withRequest b) :
    Discreet fun s => State.withOperands src.bytes s fun s => next (src.load s).1 (src.load s).2 := by
  refine withOperands_discreet (fun s => (KeepsOutside.load src s).trans (hkeeps _ _)) fun b s => ?_
  rw [src.load_withRequest, hrequest]

/-- Every reference handler is discreet (rule R111): by the operations it is made of, or by definition where they are
updates of single fields. -/
theorem exec_discreet (i : Instr) : Discreet (exec i) := by
  intro s
  cases i with
  | adc src => exact loadThen_discreet src (fun v u => .addWithCarry v u) State.addWithCarry_withRequest s
  | sbc src => exact loadThen_discreet src (fun v u => .subtractWithBorrow v u) State.subtractWithBorrow_withRequest s
  | bit src => exact loadThen_discreet src (fun v u => .testBits src v u) (State.testBits_withRequest src) s
  | lda src | ldx src | ldy src | and src | eor src | ora src | cmp src | cpx src | cpy src =>
    dsimp only [exec]
    refine withOperands_discreet (fun s => ?_) (fun b s => ?_) s
    · exact (KeepsOutside.load src s).trans {}
    · dsimp only
      rw [src.load_withRequest]
      rfl
  | jmp t =>
    dsimp only [exec]
    refine withOperands_discreet (fun s => ?_) (fun b s => ?_) s
    · exact (KeepsOutside.jumpResolve t s).trans {}
    · dsimp only
      rw [t.resolve_withRequest]
      rfl
  | sta m | stx m | sty m | stz m =>
    dsimp only [exec]
    refine withOperands_discreet (fun s => ?_) (fun b s => ?_) s
    · exact .store m _ s
    · exact m.store_withRequest _ b s
  | tsb m | trb m =>
    dsimp only [exec]
    refine withOperands_discreet (fun s => ?_) (fun b s => ?_) s
    · exact .memModify m _ s
    · exact m.modify_withRequest _ b s
  | asl t | lsr t | rol t | ror t | inc t | dec t =>
    dsimp only [exec]
    exact withOperands_discreet (fun s => .modify t _ s) (fun b s => t.modify_withRequest _ b s) s
  | rmb0 z | rmb1 z | rmb2 z | rmb3 z | rmb4 z | rmb5 z | rmb6 z | rmb7 z
  | smb0 z | smb1 z | smb2 z | smb3 z | smb4 z | smb5 z | smb6 z | smb7 z =>
    dsimp only [exec]
    exact withOperands_discreet (fun s => .readThenWrite _ _ _ s) (fun _ _ => rfl) s
  | bbr0 z rel | bbr1 z rel | bbr2 z rel | bbr3 z rel | bbr4 z rel | bbr5 z rel | bbr6 z rel | bbr7 z rel
  | bbs0 z rel | bbs1 z rel | bbs2 z rel | bbs3 z rel | bbs4 z rel | bbs5 z rel | bbs6 z rel | bbs7 z rel =>
    dsimp only [exec]
    exact withOperands_discreet (fun s => .branchOnMemoryBit _ _ z rel s) (fun _ _ => rfl) s
  | jsr target =>
    dsimp only [exec]
    exact withOperands_discreet (fun s => (KeepsOutside.pushAddr (s.pcAtFetch + 2) s).trans {}) (fun _ _ => rfl) s
  | rts => exact ⟨_, rfl, (KeepsOutside.pullAddr s).trans {}, fun _ => rfl⟩
  | brk sig =>
    exact ⟨_, rfl, (KeepsOutside.consumeAll [sig] s).trans (.enterVector _ _ .D false _), fun _ => rfl⟩
  | rti => exact ⟨_, rfl, .returnFromVector s, fun _ => rfl⟩
  | _ => exact ⟨_, rfl, {}, fun _ => rfl⟩

/-- What a reference handler is known to have answered keeps the fields outside its reach. -/
theorem keepsOutside_of_exec {i : Instr} {s t : State} (h : exec i s = .next t) : KeepsOutside s t := by
  obtain ⟨u, hu, hkeeps, -⟩ := exec_discreet i s
  cases h.symm.trans hu
  exact hkeeps

/-- Only WAI is in the class that waits (rule R87). -/
theorem pcClass_ne_wait {i : Instr} (h : i ≠ .wai) : i.pcClass ≠ .wait := by
  cases i with
  | wai => exact absurd rfl h
  | _ => exact nofun

/-- A reference handler moves the cursor past its operand bytes (rules R76 and R88). -/
theorem exec_decodeOffset {i : Instr} {s t : State} (h : exec i s = .next t) :
    t.decodeOffset + 1 = s.decodeOffset + i.length := by
  rw [(computes_of_exec h).decodeOffset, State.consumeAll_decodeOffset, ← i.operandBytes_length, Nat.add_assoc]

end Machine

namespace Claims

/-! ### Handler programs (rule R110) -/

/-- What the actions of a handler program add up to. Only STP's program halts, and only WAI's sets WAIT. -/
structure ProgramRuns (s t : State) : Prop extends KeepsOutside s t where
  accesses : ∃ rs, Accesses rs s t
  cursor : s.decodeOffset ≤ t.decodeOffset
  records : t.decodeOffset + s.trace.length ≤ s.decodeOffset + t.trace.length
  phase : t.phase = s.phase ∨ s.currentOpcode = 0xDB#8 ∧ t.phase = .haltFlush
  wait : t.wait = s.wait ∨ s.currentOpcode = 0xCB#8 ∧ t.wait = true

namespace ProgramRuns

theorem trans {s t u : State} (h : ProgramRuns s t) (k : ProgramRuns t u) : ProgramRuns s u where
  toKeepsOutside := h.toKeepsOutside.trans k.toKeepsOutside
  accesses :=
    have ⟨_, hrs⟩ := h.accesses
    have ⟨_, hqs⟩ := k.accesses
    ⟨_, hrs.trans hqs⟩
  cursor := h.cursor.trans k.cursor
  records := by
    have := h.records
    have := k.records
    omega
  phase := by
    obtain hk | ⟨hop, hk⟩ := k.phase
    · exact hk ▸ h.phase
    · exact .inr ⟨h.currentOpcode ▸ hop, hk⟩
  wait := by
    obtain hk | ⟨hop, hk⟩ := k.wait
    · exact hk ▸ h.wait
    · exact .inr ⟨h.currentOpcode ▸ hop, hk⟩

/-- An action that makes no access and moves neither the cursor nor the phase nor WAIT. -/
theorem silent {s t : State} (hkeeps : KeepsOutside s t := by exact {})
    (haccesses : Accesses [] s t := by exact .silent) (hcursor : t.decodeOffset = s.decodeOffset := by rfl)
    (hphase : t.phase = s.phase := by rfl) (hwait : t.wait = s.wait := by rfl) : ProgramRuns s t where
  toKeepsOutside := hkeeps
  accesses := ⟨[], haccesses⟩
  cursor := hcursor.ge
  records := by rw [hcursor, haccesses.trace]; exact le_rfl
  phase := .inl hphase
  wait := .inl hwait

theorem fetch (s : State) : ProgramRuns s (s.consume (s.mem.read s.cursorAddr)) where
  accesses := ⟨[reads s s.cursorAddr], rfl, ⟨rfl, trivial⟩, rfl, (Bool.or_false _).symm⟩
  cursor := Nat.le_add_right _ 1
  records := by
    rw [State.consume_trace, State.consume_decodeOffset, List.length_cons]
    omega
  phase := .inl rfl
  wait := .inl rfl

theorem memRead (addr : Addr) (s : State) : ProgramRuns s (s.busRead addr).2 where
  accesses := ⟨_, .busRead addr s⟩
  cursor := le_rfl
  records := Nat.add_le_add_left (Nat.le_add_right _ 1) _
  phase := .inl rfl
  wait := .inl rfl

theorem memWrite (addr : Addr) (v : Byte) (s : State) : ProgramRuns s (s.busWrite addr v) where
  accesses := ⟨_, .busWrite addr v s⟩
  cursor := le_rfl
  records := Nat.add_le_add_left (Nat.le_add_right _ 1) _
  phase := .inl rfl
  wait := .inl rfl

theorem haltResult (s : State) : ProgramRuns s s.haltResult := by
  unfold State.haltResult
  split
  next hop => exact ⟨{}, ⟨[], .silent⟩, le_rfl, le_rfl, .inr ⟨hop, rfl⟩, .inl rfl⟩
  next => exact .silent

theorem requestWait (s : State) : ProgramRuns s s.requestWait := by
  unfold State.requestWait
  split
  next hop => exact ⟨{}, ⟨[], .silent⟩, le_rfl, le_rfl, .inl rfl, .inr ⟨hop, rfl⟩⟩
  next => exact .silent

end ProgramRuns

/-- Every handler program completes under `wrap`, action by action, and reads no request. -/
theorem run_wrap (body : HandlerProgram) (s : State) :
    ∃ t, body.run .wrap s = .next t ∧ ProgramRuns s t
      ∧ ∀ b, body.run .wrap (s.withRequest b) = .next (t.withRequest b) := by
  induction body generalizing s with
  | done => exact ⟨s, rfl, .silent, fun _ => rfl⟩
  | halt =>
    refine ⟨_, rfl, .haltResult s, fun b => ?_⟩
    rw [State.haltResult_eq, HandlerProgram.run, State.haltResult_eq]
    rfl
  | fetch next ih =>
    obtain ⟨t, ht, hruns, hrequest⟩ := ih (s.mem.read s.cursorAddr) (s.consume (s.mem.read s.cursorAddr))
    exact ⟨t, ht, .trans (.fetch s) hruns, hrequest⟩
  | memRead addr next ih =>
    obtain ⟨t, ht, hruns, hrequest⟩ := ih (s.mem.read addr) (s.busRead addr).2
    exact ⟨t, ht, .trans (.memRead addr s) hruns, hrequest⟩
  | memWrite addr v next ih =>
    obtain ⟨t, ht, hruns, hrequest⟩ := ih (s.busWrite addr v)
    exact ⟨t, ht, .trans (.memWrite addr v s) hruns, hrequest⟩
  | setWait next ih =>
    obtain ⟨t, ht, hruns, hrequest⟩ := ih s.requestWait
    refine ⟨t, ht, .trans (.requestWait s) hruns, fun b => ?_⟩
    rw [← hrequest, State.requestWait_eq, HandlerProgram.run, State.requestWait_eq]
    rfl
  | view next ih | draw next ih =>
    obtain ⟨t, ht, hruns, hrequest⟩ := ih _ _
    exact ⟨t, ht, .trans .silent hruns, hrequest⟩
  | setA v next ih | setX v next ih | setY v next ih | setSp v next ih | setP v next ih | setPc v next ih
  | setBranchDisplacement v next ih =>
    obtain ⟨t, ht, hruns, hrequest⟩ := ih _
    exact ⟨t, ht, .trans .silent hruns, hrequest⟩

/-! ### The settled statement -/

/-- All that a reference handler does to the trace, memory and DIRTY, its operand bytes included. -/
theorem exec_records (i : Instr) (s : State) :
    ∃ t, exec i s = .next t ∧ t.trace = (handlerRecords i s).reverse ++ s.trace
      ∧ t.mem = replay (handlerRecords i s) s.mem ∧ t.dirty = (s.dirty || anyWrite (handlerRecords i s)) := by
  obtain ⟨u, hu, haccesses⟩ := exec_accesses i s
  obtain ⟨t, ht, htrace⟩ := noDummyAccesses i s
  cases hu.symm.trans ht
  refine ⟨_, ht, htrace, ?_, ?_⟩
  · rw [haccesses.mem, dataRecords_consumeAll, State.consumeAll_mem, handlerRecords, replay_append,
      replay_operandRecords]
  · rw [haccesses.dirty, dataRecords_consumeAll, State.consumeAll_dirty, handlerRecords, anyWrite_append,
      anyWrite_operandRecords, Bool.false_or]

/-- What no handler reaches, and what its accesses come to, are the contract (rule R111). -/
theorem withinContract {s t : State} {rs : List TraceRecord} (h : KeepsOutside s t)
    (hwait : s.wait = true → t.wait = true) (htrace : t.trace = rs.reverse ++ s.trace)
    (hmem : t.mem = replay rs s.mem) (hdirty : t.dirty = (s.dirty || anyWrite rs)) : WithinContract s t :=
  ⟨h.pcAtFetch, h.currentOpcode, h.interruptPending, h.icState, h.device, h.deviceCalls, hwait,
    rs, htrace, hmem, hdirty⟩

/-- Settles O14: handlers are discreet, their records account for memory and DIRTY, and WAIT is WAI's. -/
theorem handlersKeepContract : Obligations.HandlersKeepContract := by
  refine ⟨fun i s => ?_, fun body s => ?_⟩
  · obtain ⟨t, ht, hkeeps, hrequest⟩ := exec_discreet i s
    obtain ⟨u, hu, htrace, hmem, hdirty⟩ := exec_records i s
    cases hu.symm.trans ht
    obtain ⟨-, -, hwait, -, hsets, -⟩ := handlersKeepPcClass i s t ht
    refine ⟨t, ht, withinContract hkeeps (fun hw => ?_) htrace hmem hdirty, exec_decodeOffset ht,
      fun hi => hwait (pcClass_ne_wait hi), hrequest⟩
    by_cases hclass : i.pcClass = .wait
    · exact hsets hclass
    · exact (hwait hclass).trans hw
  · obtain ⟨t, ht, hruns, hrequest⟩ := run_wrap body s
    obtain ⟨rs, haccesses⟩ := hruns.accesses
    refine ⟨t, ht, withinContract hruns.toKeepsOutside (fun hw => ?_) haccesses.trace haccesses.mem haccesses.dirty,
      hruns.cursor, hruns.records, hruns.phase, hruns.wait, hrequest⟩
    obtain h | ⟨-, h⟩ := hruns.wait
    · exact h.trans hw
    · exact h

end Claims
end Sys2Proof
end

section
/-! PROOFS. DISPATCH and what can stop a step (O5, O7, O8, O10): the operand bytes are what the cursor would read, the
opcode byte selects the handler, and only a cursor read that the policy blocks stops one. -/

namespace Sys2Proof

open Machine

namespace Machine

/-! ### Selecting the handler (rules R8 and R106) -/

@[simp] theorem State.fetchPhase_currentOpcode (s : State) : s.fetchPhase.currentOpcode = s.mem.read s.pc := by
  rw [State.fetchPhase_eq]

theorem Params.dispatch_mapped {P : Params} {s : State} (h : P.mappedSet s.currentOpcode = true) :
    P.dispatch s = (P.handlers s.currentOpcode).run P.cursorTopPolicy s := by
  rw [Params.dispatch, if_pos h]

/-- With the reference handlers of the default set, DISPATCH runs that of the instruction in flight, which for an
unmapped byte is the no-op and has no operand bytes to block. -/
theorem Params.dispatch_default_policy (policy : CursorTopPolicy) (s : State) :
    ({ Params.default with cursorTopPolicy := policy } : Params).dispatch s = s.runReference policy := by
  by_cases h : Config.mapped s.currentOpcode = true
  · exact Params.dispatch_mapped h
  · have hinstr : s.instructionInFlight = .unmapped s.currentOpcode := if_neg h
    rw [Params.dispatch_unmapped (Bool.eq_false_iff.2 h), State.runReference, hinstr]
    rfl

/-- After FETCH the instruction in flight is what the bytes at pc decode to (rules R85 and R88). -/
theorem instructionInFlight_of_decode {s : State} {i : Instr} {rest : List Byte}
    (h : decode [s.mem.read s.pc, s.mem.read (s.pc + 1), s.mem.read (s.pc + 2)] = .ok i rest) :
    s.fetchPhase.instructionInFlight = i := by
  obtain ⟨hi, -, -⟩ := decode_cons_eq_ok h
  rw [State.instructionInFlight_fetchPhase, hi]
  rfl

/-! ### What can stop a handler (rules R104, R105 and R111) -/

/-- An outcome that is a next state or, under the policy `fault`, the fault of a cursor read past 0xFFFF. -/
def CompletesOrBlocks (policy : CursorTopPolicy) (o : Out) : Prop :=
  (∃ t, o = .next t)
    ∨ policy = .fault ∧ ∃ (snapshot : Addr) (offset : Nat), 0xFFFF < snapshot.toNat + offset
        ∧ o = .fault (.cursorBeyondTop snapshot offset)

theorem cursorBlocked_eq_true {policy : CursorTopPolicy} {s : State} :
    s.cursorBlocked policy = true ↔ policy = .fault ∧ 0xFFFF < s.cursorPosition := by
  simp [State.cursorBlocked]

theorem CompletesOrBlocks.of_blocked {policy : CursorTopPolicy} {s : State} (h : s.cursorBlocked policy = true) :
    CompletesOrBlocks policy (.fault (.cursorBeyondTop s.pcAtFetch s.decodeOffset)) :=
  have ⟨hpolicy, hposition⟩ := cursorBlocked_eq_true.1 h
  .inr ⟨hpolicy, s.pcAtFetch, s.decodeOffset, hposition, rfl⟩

theorem consumeUnder_completesOrBlocks (policy : CursorTopPolicy) (bs : List Byte) (s : State) :
    CompletesOrBlocks policy (State.consumeUnder policy bs s) := by
  induction bs generalizing s with
  | nil => exact .inl ⟨s, rfl⟩
  | cons b rest ih =>
    rw [State.consumeUnder]
    split
    next h => exact .of_blocked h
    next => exact ih _

/-- A reference handler never stops of itself (rule R111). -/
theorem runReference_completesOrBlocks (policy : CursorTopPolicy) (s : State) :
    CompletesOrBlocks policy (s.runReference policy) := by
  rw [State.runReference]
  obtain ⟨t, h⟩ | ⟨hpolicy, snapshot, offset, hposition, h⟩ :=
    consumeUnder_completesOrBlocks policy s.instructionInFlight.operandBytes s
  · obtain ⟨u, hu, -⟩ := exec_discreet s.instructionInFlight s
    exact .inl ⟨u, by rw [h, hu]⟩
  · exact .inr ⟨hpolicy, snapshot, offset, hposition, by rw [h]⟩

/-- Of the actions of a handler program only `Fetch()` can stop it. -/
theorem run_completesOrBlocks (policy : CursorTopPolicy) (body : HandlerProgram) (s : State) :
    CompletesOrBlocks policy (body.run policy s) := by
  induction body generalizing s with
  | done => exact .inl ⟨s, rfl⟩
  | halt => exact .inl ⟨_, rfl⟩
  | fetch next ih =>
    rw [HandlerProgram.run, State.fetch]
    by_cases h : s.cursorBlocked policy = true
    · rw [if_pos h]
      exact .of_blocked h
    · rw [if_neg h]
      exact ih _ _
  | memRead _ next ih | view next ih | draw next ih => exact ih _ _
  | memWrite _ _ next ih | setWait next ih | setA _ next ih | setX _ next ih | setY _ next ih | setSp _ next ih
  | setP _ next ih | setPc _ next ih | setBranchDisplacement _ next ih => exact ih _

theorem dispatch_completesOrBlocks (P : Params) (s : State) :
    CompletesOrBlocks P.cursorTopPolicy (P.dispatch s) := by
  by_cases h : P.mappedSet s.currentOpcode = true
  · rw [Params.dispatch_mapped h]
    cases P.handlers s.currentOpcode with
    | reference => exact runReference_completesOrBlocks _ s
    | program body => exact run_completesOrBlocks _ body s
  · exact .inl ⟨s, Params.dispatch_unmapped (Bool.eq_false_iff.2 h)⟩

theorem CompletesOrBlocks.afterDispatch {policy : CursorTopPolicy} {o : Out} (h : CompletesOrBlocks policy o) :
    CompletesOrBlocks policy (afterDispatch o) := by
  obtain ⟨t, rfl⟩ | ⟨hpolicy, snapshot, offset, hposition, rfl⟩ := h
  · exact .inl ⟨t.afterHandler, rfl⟩
  · exact .inr ⟨hpolicy, snapshot, offset, hposition, rfl⟩

/-- From every phase but HALTED a step goes on, but for a blocked cursor read (rule R125). -/
theorem stepUnder_completesOrBlocks (P : Params) {s : State} (h : s.phase ≠ .halted) :
    CompletesOrBlocks P.cursorTopPolicy (stepUnder P s) := by
  cases hp : s.phase with
  | halted => exact absurd hp h
  | fetch => exact stepUnder_fetch P hp ▸ (dispatch_completesOrBlocks P s.fetchPhase).afterDispatch
  | dispatch =>
    rw [stepUnder, hp]
    exact (dispatch_completesOrBlocks P s).afterDispatch
  | _ => exact .inl ⟨_, by rw [stepUnder, hp]⟩

/-! ### Where the policy `fault` stops an instruction (rule R104) -/

/-- Of operand bytes that start inside the address space or just past it, the first read past 0xFFFF is blocked. -/
theorem consumeUnder_fault {s : State} (bs : List Byte) (h : s.cursorPosition ≤ 0x10000) :
    State.consumeUnder .fault bs s = if s.cursorPosition + bs.length ≤ 0x10000 then .next (State.consumeAll bs s)
      else .fault (.cursorBeyondTop s.pcAtFetch (0x10000 - s.pcAtFetch.toNat)) := by
  induction bs generalizing s with
  | nil => exact (if_pos h).symm
  | cons b rest ih =>
    have hnext : (s.consume b).cursorPosition = s.cursorPosition + 1 := rfl
    rw [State.consumeUnder]
    by_cases hb : s.cursorBlocked .fault = true
    · have hpast := (cursorBlocked_eq_true.1 hb).2
      have hoffset : s.decodeOffset = 0x10000 - s.pcAtFetch.toNat := by
        rw [State.cursorPosition] at h hpast
        omega
      rw [if_pos hb, hoffset, if_neg (by rw [List.length_cons]; omega)]
    · have hinside : s.cursorPosition ≤ 0xFFFF := by simpa [cursorBlocked_eq_true] using hb
      rw [if_neg hb, ih (by omega), hnext, List.length_cons, Nat.add_assoc, Nat.add_comm 1]
      rfl

/-- So a reference handler right after FETCH stops exactly where its instruction runs past 0xFFFF. -/
theorem runReference_fault_fetchPhase (s : State) :
    s.fetchPhase.runReference .fault
      = if s.pc.toNat + s.fetchPhase.instructionInFlight.length ≤ 0x10000 then
          exec s.fetchPhase.instructionInFlight s.fetchPhase
        else .fault (.cursorBeyondTop s.pc (0x10000 - s.pc.toNat)) := by
  have hposition : s.fetchPhase.cursorPosition = s.pc.toNat + 1 := by
    rw [State.fetchPhase_eq, State.cursorPosition]
  have hsnapshot : s.fetchPhase.pcAtFetch = s.pc := by rw [State.fetchPhase_eq]
  have hpc : s.pc.toNat < 0x10000 := s.pc.isLt
  rw [State.runReference, consumeUnder_fault _ (by omega), hposition, hsnapshot, Nat.add_assoc, Nat.add_comm 1,
    Instr.operandBytes_length]
  by_cases h : s.pc.toNat + s.fetchPhase.instructionInFlight.length ≤ 0x10000
  · rw [if_pos h, if_pos h]
  · rw [if_neg h, if_neg h]

end Machine

/-! ### The settled statements -/

namespace Claims

/-- Settles O5: an instruction has at most two operand bytes, and those of the one in flight are decoded from the bytes
at the cursor and after it. -/
theorem operandsComeFromFetch : Obligations.OperandsComeFromFetch := by
  intro s
  have hle := s.instructionInFlight.operandCount_le
  have hnext (b : Byte) : (s.consume b).cursorAddr = s.cursorAddr + 1 := BitVec.ofNat_add _ 1
  have hbytes : s.instructionInFlight.operandBytes
      = [s.mem.read s.cursorAddr, s.mem.read (s.cursorAddr + 1)].take (s.instructionInFlight.length - 1) :=
    Decode.instrOf_operandBytes _ _ _
  rw [hbytes]
  generalize s.instructionInFlight.length - 1 = n at hle
  match n, hle with
  | 0, _ => rfl
  | 1, _ => rfl
  | 2, _ =>
    simp only [fetchMany, State.fetch_wrap, hnext]
    rfl

/-- Settles O7: FETCH as one update. -/
theorem fetchStartsIteration : Obligations.FetchStartsIteration := State.fetchPhase_eq

/-- Settles O8: the decoder and DISPATCH read the same opcode byte, the one at pc. -/
theorem stepRunsDecodedInstruction : Obligations.StepRunsDecodedInstruction := by
  intro s hphase
  refine ⟨fun i rest hdecode => ?_, fun P => ⟨fun hmapped => ?_, fun hmapped hhandler hpolicy _ => ?_,
    fun body hmapped hhandler => ?_⟩⟩
  · rw [step_fetch hphase, instructionInFlight_of_decode hdecode]
    rfl
  · rw [← s.fetchPhase_currentOpcode] at hmapped
    rw [stepUnder_fetch P hphase, Params.dispatch_unmapped hmapped]
    rfl
  · rw [← s.fetchPhase_currentOpcode] at hmapped hhandler
    rw [stepUnder_fetch P hphase, step_fetch hphase, Params.dispatch_mapped hmapped, hhandler, hpolicy, Handler.run,
      State.runReference_wrap]
  · rw [← s.fetchPhase_currentOpcode] at hmapped hhandler
    rw [stepUnder_fetch P hphase, Params.dispatch_mapped hmapped, hhandler]
    rfl

/-- Settles O10: a handler is stopped by a blocked cursor read alone, and the first one blocked is that of the first
byte past 0xFFFF. -/
theorem onlyHaltedStops : Obligations.OnlyHaltedStops := by
  intro s
  refine ⟨step_halted, fun h => ?_, fun P => ⟨stepUnder_halted P, stepUnder_completesOrBlocks P⟩, fun hphase => ?_⟩
  · obtain hnext | ⟨hfault, -⟩ := stepUnder_completesOrBlocks Params.default h
    · exact hnext
    · cases hfault
  · dsimp only
    rw [stepUnder_fetch _ hphase, step_fetch hphase, Params.dispatch_default_policy, runReference_fault_fetchPhase,
      ← State.instructionInFlight_fetchPhase]
    split <;> rfl

end Claims

end Sys2Proof
end

section
/-! PROOFS. What follows a handler (O9, O18, O19, O27): RESOLVE_PC as arithmetic mod 2^16, the order of the phases after
it, and the halt of STP. -/

namespace Sys2Proof

open Machine

namespace Machine

namespace State

/-! ### RESOLVE_PC (rules R112 and R113) -/

/-- RESOLVE_PC as a number: the advanced pc and the displacement, mod 2^16. -/
theorem resolvePc_pc_toNat (s : State) :
    (s.resolvePc.pc.toNat : Int) = ((s.advancedPc.toNat : Int) + s.branchDisplacement) % 65536 := by
  rw [resolvePc, BitVec.toNat_ofInt]
  omega

theorem resolvePc_pc (s : State) : s.resolvePc.pc = s.advancedPc + BitVec.ofInt 16 s.branchDisplacement := by
  rw [resolvePc, BitVec.ofInt_add, BitVec.ofInt_natCast, BitVec.ofNat_toNat, BitVec.setWidth_eq]

/-- Where pc still equals the snapshot the new pc is the snapshot, the length and the displacement. -/
theorem resolvePc_pc_of_eq {s : State} (h : s.pc = s.pcAtFetch) :
    s.resolvePc.pc = BitVec.ofInt 16 (s.pcAtFetch.toNat + s.decodeOffset + s.branchDisplacement) := by
  rw [resolvePc_pc, advancedPc, if_pos h, h, BitVec.ofInt_add, ← Nat.cast_add, BitVec.ofInt_natCast]

/-- The same without a displacement. -/
theorem resolvePc_pc_of_eq_zero {s : State} (h : s.pc = s.pcAtFetch) (hd : s.branchDisplacement = 0) :
    s.resolvePc.pc = BitVec.ofNat 16 (s.pcAtFetch.toNat + s.decodeOffset) := by
  rw [resolvePc_pc_of_eq h, hd, Int.add_zero, ← Nat.cast_add, BitVec.ofInt_natCast]

/-- A pc that the handler has written stays, where there is no displacement. -/
theorem resolvePc_pc_of_ne_zero {s : State} (h : s.pc ≠ s.pcAtFetch) (hd : s.branchDisplacement = 0) :
    s.resolvePc.pc = s.pc := by
  rw [resolvePc_pc, advancedPc, if_neg h, hd]
  exact BitVec.add_zero s.pc

/-! ### The order of the phases (rule R100) -/

theorem mustWait_iff {s : State} : s.mustWait = true ↔ s.wait = true ∧ s.interruptPending = false := by
  simp [mustWait]

theorem afterSync_phase (s : State) : s.afterSync.phase = .fetch ∨ s.afterSync.phase = .waitPoll := by
  unfold afterSync
  split
  · exact .inr rfl
  · exact .inl s.interruptCheck_phase

/-- A handler that did not halt is followed by RESOLVE_PC. -/
theorem afterHandler_of_ne {s : State} (h : s.phase ≠ .haltFlush) : s.afterHandler = s.fromResolvePc := by
  unfold afterHandler
  split
  next hp => exact absurd hp h
  next => rfl

/-- STP's handler is followed by the halt (rule R108). -/
theorem afterHandler_halt {s : State} (h : s.phase = .haltFlush) : s.afterHandler = s.drawHaltPc.haltFlush := by
  rw [afterHandler, h]

theorem afterHandler_phase (s : State) :
    s.afterHandler.phase = .fetch ∨ s.afterHandler.phase = .waitPoll ∨ s.afterHandler.phase = .halted := by
  by_cases h : s.phase = .haltFlush
  · exact .inr (.inr (congrArg State.phase (afterHandler_halt h)))
  · rw [afterHandler_of_ne h]
    exact s.resolvePc.ioSync.afterSync_phase.imp_right .inl

/-- The halt, from the draw of the pc on (rules R108 and R124). -/
theorem haltFlush_drawHaltPc_eq (s : State) :
    s.drawHaltPc.haltFlush = { s with
      pc := if Config.haltPcAdvances s.draws then s.pcAtFetch + 1 else s.pcAtFetch
      draws := s.draws + 1
      mem := s.mem.writes s.drawHaltPc.nextReply.writes
      interruptPending := s.interruptPending || s.drawHaltPc.nextReply.asserts
      device := s.device.rest
      deviceCalls := s.deviceCalls + 1
      dirty := false
      phase := .halted } := rfl

end State

end Machine

/-! ### The settled statements -/

namespace Claims

/-- Settles O9: each phase leads to the next by definition, and the poll's test is that of rule R118. -/
theorem afterHandlerOrder : Obligations.AfterHandlerOrder := by
  refine fun t => ⟨fun h => ?_, State.afterHandler_halt, t.afterHandler_phase, rfl⟩
  rw [State.afterHandler_of_ne h, State.fromResolvePc, State.fromIoSync, State.afterSync]
  simp only [State.mustWait_iff]

/-- Settles O18: RESOLVE_PC's sum, where the advance is itself mod 2^16. -/
theorem resolvePcRule : Obligations.ResolvePcRule := by
  refine fun s => ⟨rfl, fun h => ?_, fun h => ?_⟩
  · rw [s.resolvePc_pc_toNat, State.advancedPc, if_pos h, h, BitVec.toNat_ofNat]
    omega
  · rw [s.resolvePc_pc_toNat, State.advancedPc, if_neg h]

/-- Settles O19: FETCH has made pc the snapshot, cleared the displacement and put the cursor at 1; the handler has
moved the cursor to the instruction's length and written pc or the displacement only as its class says. -/
theorem pcAfterResolve : Obligations.PcAfterResolve := by
  intro i s t ht
  have hsnapshot : t.pcAtFetch = s.pc := (keepsOutside_of_exec ht).pcAtFetch
  have hoffset : t.decodeOffset = i.length := by
    have hmoved : t.decodeOffset + 1 = 1 + i.length := exec_decodeOffset ht
    omega
  obtain ⟨hpc, hdisplacement, -⟩ := handlersKeepPcClass i s.fetchPhase t ht
  have hkept (hc : i.pcClass ≠ .absolute) : t.pc = t.pcAtFetch := (hpc hc).trans hsnapshot.symm
  have hzero (hc : i.pcClass ≠ .relative) : t.branchDisplacement = 0 := hdisplacement hc
  rw [← hsnapshot, ← hoffset]
  refine ⟨fun hc => ?_, fun hc => ?_, fun hc hd => ?_, fun hc hne => ?_, fun hc heq => ?_⟩
  · refine State.resolvePc_pc_of_eq_zero (hkept fun h => ?_) (hzero fun h => ?_) <;> simp [h] at hc
  · exact State.resolvePc_pc_of_eq (hkept fun h => by simp [h] at hc)
  · exact State.resolvePc_pc_of_eq_zero (hkept fun h => by simp [h] at hc) hd
  · exact State.resolvePc_pc_of_ne_zero hne (hzero fun h => by simp [h] at hc)
  · exact State.resolvePc_pc_of_eq_zero heq (hzero fun h => by simp [h] at hc)

/-- Settles O27: 0xDB decodes to STP, whose handler only moves to the halt. -/
theorem stpEndsTheRun : Obligations.StpEndsTheRun := by
  intro s hphase hop
  have hinstr : s.fetchPhase.instructionInFlight = .stp := by
    rw [State.instructionInFlight_fetchPhase, hop]
    rfl
  have hstep : step s = .next ({ s.fetchPhase with phase := .haltFlush } : State).drawHaltPc.haltFlush := by
    rw [step_fetch hphase, hinstr]
    rfl
  rw [State.haltFlush_drawHaltPc_eq, State.fetchPhase_eq, hop] at hstep
  refine ⟨_, hstep, rfl, ?_, rfl, rfl, rfl, ⟨rfl, rfl, rfl, rfl⟩, rfl, fun h => ?_, step_halted rfl⟩
  · dsimp only
    split
    · exact .inr rfl
    · exact .inl rfl
  · dsimp only
    rw [h, Bool.true_or]

end Claims

end Sys2Proof
end

section
/-! PROOFS. The device and the wait (O20, O21, O22): a device call as one update, a poll, and polls that no request
ends. -/

namespace Sys2Proof

open Machine

namespace Machine

namespace State

/-! ### A poll (rule R118) -/

theorem interruptCheck_deviceCalls (s : State) : s.interruptCheck.deviceCalls = s.deviceCalls := by
  obtain h | h := interruptCheck_cases s
  · rw [h, inject_spec]
  · rw [h]

theorem afterSync_deviceCalls (s : State) : s.afterSync.deviceCalls = s.deviceCalls := by
  unfold afterSync
  split
  · rfl
  · exact s.interruptCheck_deviceCalls

/-- The test of the wait loop fails: no call is made. -/
theorem waitPoll_of_not_mustWait {s : State} (h : s.mustWait = false) : s.waitPoll = s.interruptCheck := by
  rw [waitPoll, h]
  rfl

theorem waitPoll_of_mustWait {s : State} (h : s.mustWait = true) : s.waitPoll = s.deviceSync.afterSync := by
  rw [waitPoll, if_pos h]

/-- A poll that brings no request leaves what the device call leaves, DIRTY cleared. -/
theorem waitPoll_waits {s : State} (hphase : s.phase = .waitPoll) (hwait : s.wait = true)
    (hnone : s.interruptPending = false) (hquiet : s.deviceHandle.interruptPending = false) :
    s.waitPoll = s.deviceSync := by
  have hafter : s.deviceSync.mustWait = true := mustWait_iff.2 ⟨hwait, hquiet⟩
  rw [waitPoll_of_mustWait (mustWait_iff.2 ⟨hwait, hnone⟩), afterSync, if_pos hafter, ← hphase]
  rfl

/-- A poll that brings a request goes on to INTERRUPT_CHECK. -/
theorem waitPoll_ends {s : State} (hwait : s.wait = true) (hnone : s.interruptPending = false)
    (hrequest : s.deviceHandle.interruptPending = true) :
    s.waitPoll = s.deviceSync.interruptCheck := by
  have hafter : s.deviceSync.mustWait = false := by
    rw [mustWait, Bool.and_eq_false_iff]
    exact .inr (congrArg not hrequest)
  rw [waitPoll_of_mustWait (mustWait_iff.2 ⟨hwait, hnone⟩), afterSync, hafter]
  rfl

end State

/-! ### Runs -/

/-- A run of one step more, on any machine behind the host's interface. -/
theorem run_succ {M : Host.Core} {k : Nat} {s u : M.State} (h : M.step s = .next u) :
    M.run (k + 1) s = M.run k u := by
  rw [Host.Core.run, h]

theorem leads_succ {k : Nat} {s t u : State} (h : step s = .next u) : Leads (k + 1) s t ↔ Leads k u t :=
  have hrun : core.run (k + 1) s = core.run k u := run_succ h
  ⟨hrun.symm.trans, hrun.trans⟩

end Machine

/-! ### The settled statements -/

namespace Claims

/-- Settles O20: a script of one reply does what the rule allows. -/
theorem deviceCallFrame : Obligations.DeviceCallFrame := fun s =>
  ⟨s.nextReply.writes, s.nextReply.asserts, s.deviceHandle_eq, fun _ h => Memory.read_writes_of_notMem s.mem h,
    fun ws asserted => ⟨.scripted [⟨ws, asserted⟩], rfl⟩⟩

/-- Settles O21: by the test of the wait loop before the device call and after it. -/
theorem waitPollRule : Obligations.WaitPollRule := by
  intro s hphase
  rw [step_waitPoll hphase]
  refine ⟨fun hwait hnone => ⟨_, rfl, ?_, fun hquiet => ?_, State.waitPoll_ends hwait hnone⟩, fun h => ?_⟩
  · rw [State.waitPoll_of_mustWait (State.mustWait_iff.2 ⟨hwait, hnone⟩), State.afterSync_deviceCalls]
    rfl
  · rw [State.waitPoll_waits hphase hwait hnone hquiet]
    exact ⟨rfl, rfl, rfl⟩
  · rw [State.waitPoll_of_not_mustWait]
    rcases h with h | h <;> simp [State.mustWait, h]

/-- Settles O22, by induction on the number of polls: each leaves a state of the same kind, one call on. -/
theorem waitWithoutRequestNeverEnds : Obligations.WaitWithoutRequestNeverEnds := by
  intro s k
  induction k generalizing s with
  | zero => exact fun hphase hwait hnone _ => ⟨s, rfl, hphase, hwait, hnone, rfl, rfl, rfl⟩
  | succ k ih =>
    intro hphase hwait hnone hquiet
    have hfirst := hquiet 0 s k.succ_pos rfl
    have hstep : step s = .next s.deviceSync := by
      rw [step_waitPoll hphase, State.waitPoll_waits hphase hwait hnone hfirst]
    obtain ⟨t, ht, htphase, htwait, htnone, htrace, hpc, hcalls⟩ :=
      ih s.deviceSync hphase hwait hfirst fun j u hj hu =>
        hquiet (j + 1) u (Nat.succ_lt_succ hj) ((leads_succ hstep).2 hu)
    refine ⟨t, (leads_succ hstep).2 ht, htphase, htwait, htnone, htrace, hpc, hcalls.trans ?_⟩
    exact (Nat.add_assoc ..).trans (congrArg _ (Nat.add_comm 1 k))

end Claims

end Sys2Proof
end

section
/-! PROOFS. Arithmetic, compare and shift (O32 to O37): what a sequential handler leaves alone, the operand loaded once for
all reading forms, and each computation as a number and flags. -/

namespace Sys2Proof

open Machine

namespace Machine

/-! ### Status bytes (rules R12 and R24) -/

/-- Two different flags may be written in either order. -/
theorem Status.setFlag_comm {f g : Flag} (h : f ≠ g) (b c : Bool) (p : Byte) :
    setFlag f b (setFlag g c p) = setFlag g c (setFlag f b p) := by
  refine ext_flags fun k => ?_
  rcases eq_or_ne k f with rfl | hk <;> simp [*]

namespace Alu

/-! ### Sums and differences (rules R141 to R143) -/

/-- What ADC and SBC write: a result, and the status with its carry and its overflow, and N and Z from it. -/
def summed (r : Byte) (c v : Bool) (p : Byte) : Byte × Byte :=
  (r, Status.setNZ r (Status.setFlag .C c (Status.setFlag .V v p)))

theorem flag_C_summed (r : Byte) (c v : Bool) (p : Byte) : Status.flag .C (summed r c v p).2 = c := by
  simp [summed]

theorem flag_V_summed (r : Byte) (c v : Bool) (p : Byte) : Status.flag .V (summed r c v p).2 = v := by
  simp [summed]

theorem flag_summed_of_notMem {f : Flag} (h : f ∉ [Flag.N, .Z, .C, .V]) (r : Byte) (c v : Bool) (p : Byte) :
    Status.flag f (summed r c v p).2 = Status.flag f p := by
  cases f <;> simp [summed] at h ⊢

/-- The sum before it is narrowed to a byte. -/
def exactSum (a m p : Byte) : Nat := a.toNat + m.toNat + (Status.flag .C p).toNat

/-- V of rule R141, of a sum narrowed to `r`. -/
def overflow (a m r : Byte) : Bool := ((a ^^^ r) &&& (m ^^^ r) &&& 0x80#8) != 0

theorem addBinary_eq_summed (a m p : Byte) :
    addBinary a m p = summed (BitVec.ofNat 8 (exactSum a m p)) (decide (exactSum a m p > 0xFF))
      (overflow a m (BitVec.ofNat 8 (exactSum a m p))) p := rfl

/-- The exact sum with the complement of `m` is 255 more than the difference that rule R142 writes. -/
theorem exactSum_complement (a m p : Byte) :
    (exactSum a (m ^^^ 0xFF#8) p : Int) = (a.toNat : Int) - m.toNat - (1 - (Status.flag .C p).toNat) + 256 := by
  have hm := m.isLt
  rw [exactSum, xor_ones_eq_not, BitVec.toNat_not]
  omega

/-- Masking with 0x80 tests bit 7. -/
theorem and_0x80_ne_zero (b : Byte) : ((b &&& 0x80#8) != 0) = b.msb := by
  have hmask : 0x80#8 = BitVec.twoPow 8 7 := rfl
  rw [b.msb_eq_getLsbD_last, hmask, BitVec.and_twoPow]
  cases b.getLsbD 7 <;> rfl

/-- The formula of rule R141 says that the operands have one sign and the result the other, which is where the
two's-complement sum does not fit. -/
theorem overflow_eq_decide (a m p : Byte) :
    overflow a m (BitVec.ofNat 8 (exactSum a m p))
      = decide ¬ (-128 ≤ a.toInt + m.toInt + (Status.flag .C p).toNat
          ∧ a.toInt + m.toInt + (Status.flag .C p).toNat ≤ 127) := by
  have ha := a.isLt
  have hm := m.isLt
  have hc := (Status.flag .C p).toNat_le
  rw [overflow, and_0x80_ne_zero, BitVec.msb_and, BitVec.msb_xor, BitVec.msb_xor, exactSum, Bool.eq_iff_iff]
  simp only [BitVec.msb_eq_decide, BitVec.toInt_eq_toNat_cond, BitVec.toNat_ofNat, Bool.and_eq_true, bne_iff_ne,
    ne_eq, decide_eq_true_eq, decide_eq_decide]
  omega

/-- The two's-complement value of the complement. -/
theorem toInt_complement (m : Byte) : (m ^^^ 0xFF#8).toInt = -1 - m.toInt := by
  have hm := m.isLt
  rw [xor_ones_eq_not, BitVec.toInt_eq_toNat_cond, BitVec.toInt_eq_toNat_cond, BitVec.toNat_not]
  omega

/-! ### Decimal mode (rule R143) -/

theorem tobcd_toNat {n : Nat} (h : n < 100) : (tobcd n).toNat = n / 10 * 16 + n % 10 := by
  rw [tobcd, BitVec.toNat_ofNat]
  omega

theorem validBcd_tobcd {n : Nat} (h : n < 100) : validBcd (tobcd n) = true := by
  rw [validBcd, tobcd_toNat h, decide_eq_true_iff]
  omega

theorem bcd_tobcd {n : Nat} (h : n < 100) : bcd (tobcd n) = n := by
  rw [bcd, tobcd_toNat h]
  omega

/-- A decimal result mod 100, as a number below 100. -/
theorem toNat_emod_100 (r : Int) : ((r % 100).toNat : Int) = r % 100 ∧ (r % 100).toNat < 100 := by
  omega

theorem addDecimal_eq_summed (draw : Nat) (a m p : Byte) :
    addDecimal draw a m p
      = summed (decimalAddValue draw a m (Status.flag .C p)).1 (decimalAddValue draw a m (Status.flag .C p)).2
          (Config.decimalV draw .adc a m (Status.flag .C p)) p := by
  rw [summed, Status.setFlag_comm (f := .C) (g := .V) nofun, addDecimal]

theorem subDecimal_eq_summed (draw : Nat) (a m p : Byte) :
    subDecimal draw a m p
      = summed (decimalSubValue draw a m (Status.flag .C p)).1 (decimalSubValue draw a m (Status.flag .C p)).2
          (Config.decimalV draw .sbc a m (Status.flag .C p)) p := by
  rw [summed, Status.setFlag_comm (f := .C) (g := .V) nofun, subDecimal]

/-- The decimal sum of valid operands. -/
theorem decimalAddValue_valid {a m : Byte} (ha : validBcd a = true) (hm : validBcd m = true) (draw : Nat) (c : Bool) :
    decimalAddValue draw a m c
      = (tobcd ((bcd a + bcd m + c.toNat) % 100), decide (bcd a + bcd m + c.toNat ≥ 100)) := by
  rw [decimalAddValue, ha, hm]
  rfl

/-- The decimal difference of valid operands. -/
theorem decimalSubValue_valid {a m : Byte} (ha : validBcd a = true) (hm : validBcd m = true) (draw : Nat) (c : Bool) :
    decimalSubValue draw a m c
      = (tobcd (((bcd a : Int) - bcd m - (1 - c.toNat)) % 100).toNat,
          decide ((bcd a : Int) - bcd m - (1 - c.toNat) ≥ 0)) := by
  rw [decimalSubValue, ha, hm]
  rfl

/-! ### Compare (rules R144 to R146) -/

/-- Bit 7 of a difference mod 256. -/
theorem msb_sub (a b : Byte) : (a - b).msb = decide (128 ≤ ((a.toNat : Int) - b.toNat) % 256) := by
  have ha := a.isLt
  have hb := b.isLt
  rw [BitVec.msb_eq_decide, BitVec.toNat_sub, decide_eq_decide]
  omega

/-! ### Shifts and rotates (rules R147 to R150) -/

/-- What a shift writes: a result, and the status with the bit shifted out in C, and N and Z from the result. -/
def shifted (r : Byte) (out : Bool) (p : Byte) : Byte × Byte := (r, Status.setNZ r (Status.setFlag .C out p))

theorem flag_C_shifted (r : Byte) (out : Bool) (p : Byte) : Status.flag .C (shifted r out p).2 = out := by
  simp [shifted]

theorem flag_shifted_of_notMem {f : Flag} (h : f ∉ [Flag.N, .Z, .C]) (r : Byte) (out : Bool) (p : Byte) :
    Status.flag f (shifted r out p).2 = Status.flag f p := by
  cases f <;> simp [shifted] at h ⊢

end Alu

/-! ### The operand of a reading instruction (rule R140) -/

namespace State

/-- The state once the operand bytes are consumed and the operand is loaded: only the cursor and the trace have moved. -/
def afterLoad (src : Source) (s : State) : State := (src.load (consumeAll src.bytes s)).2

section
variable (src : Source) (s : State)

@[simp] theorem afterLoad_a : (s.afterLoad src).a = s.a := by simp [afterLoad]
@[simp] theorem afterLoad_x : (s.afterLoad src).x = s.x := by simp [afterLoad]
@[simp] theorem afterLoad_y : (s.afterLoad src).y = s.y := by simp [afterLoad]
@[simp] theorem afterLoad_sp : (s.afterLoad src).sp = s.sp := by simp [afterLoad]
@[simp] theorem afterLoad_p : (s.afterLoad src).p = s.p := by simp [afterLoad]
@[simp] theorem afterLoad_mem : (s.afterLoad src).mem = s.mem := by simp [afterLoad]
@[simp] theorem afterLoad_dirty : (s.afterLoad src).dirty = s.dirty := by simp [afterLoad]
@[simp] theorem afterLoad_draws : (s.afterLoad src).draws = s.draws := by simp [afterLoad]

@[simp] theorem flag_afterLoad (f : Flag) : (s.afterLoad src).flag f = s.flag f := by simp [flag]

end

/-- The state once the operand is loaded, with a value in A, a status and a count of draws: how ADC and SBC end. -/
def afterSum (src : Source) (r : Byte × Byte) (draws : Nat) (s : State) : State :=
  { s.afterLoad src with a := r.1, p := r.2, draws := draws }

end State

theorem exec_adc (src : Source) (s : State) :
    exec (.adc src) s = .next ((s.afterLoad src).addWithCarry (src.value s)) := by
  rw [← src.value_consumeAll src.bytes s]
  rfl

theorem exec_sbc (src : Source) (s : State) :
    exec (.sbc src) s = .next ((s.afterLoad src).subtractWithBorrow (src.value s)) := by
  rw [← src.value_consumeAll src.bytes s]
  rfl

theorem exec_adc_clear (src : Source) {s : State} (h : s.flag .D = false) :
    exec (.adc src) s = .next (s.afterSum src (Alu.addBinary s.a (src.value s) s.p) s.draws) := by
  rw [exec_adc, State.addWithCarry_clear (by simpa using h)]
  simp [State.afterSum]

theorem exec_sbc_clear (src : Source) {s : State} (h : s.flag .D = false) :
    exec (.sbc src) s = .next (s.afterSum src (Alu.subBinary s.a (src.value s) s.p) s.draws) := by
  rw [exec_sbc, State.subtractWithBorrow_clear (by simpa using h)]
  simp [State.afterSum]

theorem exec_adc_set (src : Source) {s : State} (h : s.flag .D = true) :
    exec (.adc src) s
      = .next (s.afterSum src (Alu.addDecimal s.draws s.a (src.value s) s.p) (s.draws + 1)) := by
  rw [exec_adc, State.addWithCarry_set (by simpa using h)]
  simp [State.afterSum]

theorem exec_sbc_set (src : Source) {s : State} (h : s.flag .D = true) :
    exec (.sbc src) s
      = .next (s.afterSum src (Alu.subDecimal s.draws s.a (src.value s) s.p) (s.draws + 1)) := by
  rw [exec_sbc, State.subtractWithBorrow_set (by simpa using h)]
  simp [State.afterSum]

theorem exec_cmp (src : Source) (s : State) :
    exec (.cmp src) s = .next ((s.afterLoad src).setP (Alu.compare s.a (src.value s) s.p)) := by
  simp [exec, execCmp, State.afterLoad]

theorem exec_cpx (src : Source) (s : State) :
    exec (.cpx src) s = .next ((s.afterLoad src).setP (Alu.compare s.x (src.value s) s.p)) := by
  simp [exec, execCpx, State.afterLoad]

theorem exec_cpy (src : Source) (s : State) :
    exec (.cpy src) s = .next ((s.afterLoad src).setP (Alu.compare s.y (src.value s) s.p)) := by
  simp [exec, execCpy, State.afterLoad]

end Machine

namespace Claims

/-! ### What the handlers of this family leave alone -/

/-- A status byte written by `SetNZ`. -/
theorem nzFrom_of_p_eq {v q : Byte} {t : State} (h : t.p = Status.setNZ v q) : NzFrom v t := by
  refine ⟨?_, ?_⟩ <;> rw [State.flag, h, Status.flag_setNZ]
  · exact v.msb_eq_getLsbD_last
  · rfl

/-- What a reference handler is known to have answered keeps the core (rule R111). -/
theorem keepsCore_of_exec {i : Instr} {s t : State} (h : exec i s = .next t) : KeepsCore i s t :=
  have k := keepsOutside_of_exec h
  ⟨k.pcAtFetch, k.currentOpcode, k.interruptPending, k.icState, k.device, k.deviceCalls, exec_decodeOffset h⟩

/-- In the sequential class, pc, displacement, WAIT and phase stay too (rule R87); the class leaves draws open. -/
theorem sequential_of_exec {i : Instr} {s t : State} (hseq : i.pcClass = .sequential) (h : exec i s = .next t) :
    KeepsCore i s t ∧ t.pc = s.pc ∧ t.branchDisplacement = s.branchDisplacement ∧ t.wait = s.wait
      ∧ t.phase = s.phase := by
  obtain ⟨hpc, hdisplacement, hwait, hphase, -⟩ := handlersKeepPcClass i s t h
  rw [hseq] at hpc hdisplacement hwait hphase
  exact ⟨keepsCore_of_exec h, hpc nofun, hdisplacement nofun, hwait nofun, hphase nofun⟩

theorem sequentialHandler_of_exec {i : Instr} {s t : State} (hseq : i.pcClass = .sequential)
    (h : exec i s = .next t) (hdraws : t.draws = s.draws) : SequentialHandler i s t :=
  have ⟨hcore, hpc, hdisplacement, hwait, hphase⟩ := sequential_of_exec hseq h
  ⟨hcore, hpc, hdisplacement, hwait, hphase, hdraws⟩

/-- All that ADC and SBC do besides A, C and V, whichever values those get: the last field is the count of draws. -/
theorem afterSum_frame {i : Instr} {src : Source} {s t : State} {r : Byte} {c v : Bool} {draws : Nat}
    (hseq : i.pcClass = .sequential) (h : exec i s = .next t)
    (ht : t = s.afterSum src (Alu.summed r c v s.p) draws) :
    NzFrom t.a t ∧ FlagsKept [.N, .Z, .C, .V] s t ∧ t.x = s.x ∧ t.y = s.y ∧ t.sp = s.sp ∧ MemoryKept s t
      ∧ KeepsCore i s t ∧ t.pc = s.pc ∧ t.branchDisplacement = s.branchDisplacement ∧ t.wait = s.wait
      ∧ t.phase = s.phase ∧ t.draws = draws := by
  obtain ⟨hcore, hpc, hdisplacement, hwait, hphase⟩ := sequential_of_exec hseq h
  subst ht
  refine ⟨nzFrom_of_p_eq rfl, fun f hf => Alu.flag_summed_of_notMem hf r c v s.p, s.afterLoad_x src,
    s.afterLoad_y src, s.afterLoad_sp src, ⟨fun a => ?_, s.afterLoad_dirty src⟩, hcore, hpc, hdisplacement, hwait,
    hphase, rfl⟩
  exact congrArg (Memory.read · a) (s.afterLoad_mem src)

/-- One byte stored in memory, DIRTY set (rule R52). -/
theorem storesByte_of_mem_eq {a : Addr} {v : Byte} {s t : State} (hmem : t.mem = s.mem.write a v)
    (hdirty : t.dirty = true) : StoresByte a v s t := by
  rw [StoresByte, hmem, hdirty]
  exact storesByte_busWrite a v s

/-- All that a read-modify-write handler does, in A or in memory, where `f` makes the new byte and the new status (rule
R140). -/
theorem modify_result {i : Instr} {tg : RmwTarget} {f : Byte → Byte → Byte × Byte} {s t : State}
    (hseq : i.pcClass = .sequential) (h : exec i s = .next t)
    (ht : t = tg.modify f (State.consumeAll tg.bytes s)) :
    RmwResult tg (f (tg.value s) s.p).1 s t ∧ t.p = (f (tg.value s) s.p).2
      ∧ t.x = s.x ∧ t.y = s.y ∧ t.sp = s.sp ∧ SequentialHandler i s t := by
  have hhandler : t.draws = s.draws → SequentialHandler i s t := sequentialHandler_of_exec hseq h
  subst ht
  cases tg with
  | acc => exact ⟨⟨rfl, fun _ => rfl, rfl⟩, rfl, rfl, rfl, rfl, hhandler rfl⟩
  | mem m =>
    refine ⟨⟨?_, storesByte_of_mem_eq ?_ rfl⟩, ?_, ?_, ?_, ?_, hhandler ?_⟩ <;>
      simp [RmwTarget.modify, RmwTarget.value]

/-- A handler that writes what a shift writes, where `n` is the result before it is narrowed (rules R147 to R150). -/
theorem shift_result {i : Instr} {tg : RmwTarget} {f : Byte → Byte → Byte × Byte} {s : State} {n : Nat} {out : Bool}
    (hseq : i.pcClass = .sequential) (h : exec i s = .next (tg.modify f (State.consumeAll tg.bytes s)))
    (hf : f (tg.value s) s.p = Alu.shifted (BitVec.ofNat 8 n) out s.p) :
    ∃ t v, exec i s = .next t ∧ v.toNat = n % 256 ∧ RmwResult tg v s t ∧ t.flag .C = out ∧ NzFrom v t
      ∧ FlagsKept [.N, .Z, .C] s t ∧ t.x = s.x ∧ t.y = s.y ∧ t.sp = s.sp ∧ SequentialHandler i s t := by
  obtain ⟨hresult, hp, hx, hy, hsp, hhandler⟩ := modify_result hseq h rfl
  rw [hf] at hresult hp
  refine ⟨_, BitVec.ofNat 8 n, h, BitVec.toNat_ofNat .., hresult, ?_, nzFrom_of_p_eq hp, fun g hg => ?_, hx, hy, hsp,
    hhandler⟩
  · rw [State.flag, hp, Alu.flag_C_shifted]
  · rw [State.flag, hp, Alu.flag_shifted_of_notMem hg, State.flag]

/-- A handler that compares `reg` with its operand (rules R144 to R146). -/
theorem compare_result {i : Instr} {src : Source} {reg : Byte} {s : State} (hseq : i.pcClass = .sequential)
    (h : exec i s = .next ((s.afterLoad src).setP (Alu.compare reg (src.value s) s.p))) :
    ∃ t, exec i s = .next t
      ∧ t.flag .C = decide ((src.value s).toNat ≤ reg.toNat)
      ∧ t.flag .Z = decide (reg = src.value s)
      ∧ t.flag .N = decide (128 ≤ ((reg.toNat : Int) - (src.value s).toNat) % 256)
      ∧ FlagsKept [.N, .Z, .C] s t ∧ RegsKept s t ∧ MemoryKept s t ∧ SequentialHandler i s t := by
  refine ⟨_, h, ?_, ?_, ?_, fun f hf => ?_, ?_, ?_, sequentialHandler_of_exec hseq h (s.afterLoad_draws src)⟩
  · simp [Alu.compare]
  · simp [Alu.compare, beq_eq_decide]
  · simp [Alu.compare, Alu.msb_sub]
  · cases f <;> simp [Alu.compare, State.flag] at hf ⊢
  · simp [RegsKept]
  · simp [MemoryKept]

/-! ### The settled statements -/

/-- Settles O32: the sum is the exact sum narrowed. -/
theorem adcBinary : Obligations.AdcBinary := by
  intro src s h
  have hexec := exec_adc_clear src h
  rw [Alu.addBinary_eq_summed] at hexec
  exact ⟨_, hexec, BitVec.toNat_ofNat .., Alu.flag_C_summed .., Alu.flag_V_summed ..,
    afterSum_frame rfl hexec rfl⟩

/-- Settles O33: the difference is the sum with the complement of the operand, which is 256 more than it. -/
theorem sbcBinary : Obligations.SbcBinary := by
  intro src s h
  have hexec := exec_sbc_clear src h
  rw [Alu.subBinary, Alu.addBinary_eq_summed] at hexec
  have hsum := Alu.exactSum_complement s.a (src.value s) s.p
  refine ⟨_, hexec, ?_, (Alu.flag_C_summed ..).trans (decide_eq_decide.2 ?_), Alu.flag_V_summed ..,
    afterSum_frame rfl hexec rfl⟩
  · simp only [State.afterSum, Alu.summed, State.flag, BitVec.toNat_ofNat]
    omega
  · simp only [State.flag]
    omega

/-- Settles O34: SBC adds the complement of the operand, which is -1 less the operand. -/
theorem overflowIsSignedOverflow : Obligations.OverflowIsSignedOverflow := by
  intro src s t h
  constructor <;> intro ht
  · cases ht.symm.trans (exec_adc_clear src h)
    exact (Alu.flag_V_summed ..).trans (Alu.overflow_eq_decide ..)
  · cases ht.symm.trans (exec_sbc_clear src h)
    refine (Alu.flag_V_summed ..).trans ((Alu.overflow_eq_decide ..).trans (decide_eq_decide.2 ?_))
    rw [Alu.toInt_complement, State.flag]
    omega

/-- Settles O35: the frame does not depend on the values drawn, and on valid operands none is drawn for A and C. -/
theorem decimalArithmetic : Obligations.DecimalArithmetic := by
  intro src s h
  have hadc := exec_adc_set src h
  have hsbc := exec_sbc_set src h
  rw [Alu.addDecimal_eq_summed] at hadc
  rw [Alu.subDecimal_eq_summed] at hsbc
  refine ⟨⟨_, hadc, fun ha hm => ?_, afterSum_frame rfl hadc rfl⟩,
    ⟨_, hsbc, fun ha hm => ?_, afterSum_frame rfl hsbc rfl⟩⟩
  · rw [Alu.decimalAddValue_valid ha hm]
    have hlt := Nat.mod_lt (Alu.bcd s.a + Alu.bcd (src.value s) + (s.flag .C).toNat) (Nat.zero_lt_succ 99)
    exact ⟨Alu.validBcd_tobcd hlt, Alu.bcd_tobcd hlt, Alu.flag_C_summed ..⟩
  · rw [Alu.decimalSubValue_valid ha hm]
    obtain ⟨hcast, hlt⟩ :=
      Alu.toNat_emod_100 ((Alu.bcd s.a : Int) - Alu.bcd (src.value s) - (1 - (s.flag .C).toNat))
    exact ⟨Alu.validBcd_tobcd hlt, (congrArg Nat.cast (Alu.bcd_tobcd hlt)).trans hcast, Alu.flag_C_summed ..⟩

/-- Settles O36: the three differ in the register alone. -/
theorem compareFlags : Obligations.CompareFlags := by
  rintro src s i reg (⟨rfl, rfl⟩ | ⟨rfl, rfl⟩ | ⟨rfl, rfl⟩)
  · exact compare_result rfl (exec_cmp src s)
  · exact compare_result rfl (exec_cpx src s)
  · exact compare_result rfl (exec_cpy src s)

/-- Settles O37: the four differ in the result before it is narrowed and in the bit shifted out; a right shift needs no
narrowing. -/
theorem shiftResults : Obligations.ShiftResults := by
  intro tg s i r out h
  have hvalue := (tg.value s).isLt
  have hcarry := (s.flag .C).toNat_le
  have hlsr : (tg.value s).toNat / 2 = (tg.value s).toNat / 2 % 256 := by omega
  have hror : (tg.value s).toNat / 2 + (s.flag .C).toNat * 128
      = ((tg.value s).toNat / 2 + (s.flag .C).toNat * 128) % 256 := by omega
  obtain ⟨rfl, rfl, rfl⟩ | ⟨rfl, rfl, rfl⟩ | ⟨rfl, rfl, rfl⟩ | ⟨rfl, rfl, rfl⟩ := h
  · exact shift_result rfl rfl rfl
  · rw [hlsr]
    exact shift_result rfl rfl rfl
  · exact shift_result rfl rfl rfl
  · rw [hror]
    exact shift_result rfl rfl rfl

end Claims

end Sys2Proof
end

section
/-! PROOFS. Loads, stores, stack and transfers (O38 to O42): what writing N and Z leaves alone, said once for every handler
that ends with it, and one result for all stores and one for all pushes. -/

namespace Sys2Proof

open Machine

namespace Machine

/-! ### Loads and stores once the operand bytes are consumed (rule R140) -/

theorem exec_lda (src : Source) (s : State) :
    exec (.lda src) s = .next (((s.afterLoad src).setA (src.value s)).setNZ (src.value s)) := by
  rw [← src.value_consumeAll src.bytes s]
  rfl

theorem exec_ldx (src : Source) (s : State) :
    exec (.ldx src) s = .next (((s.afterLoad src).setX (src.value s)).setNZ (src.value s)) := by
  rw [← src.value_consumeAll src.bytes s]
  rfl

theorem exec_ldy (src : Source) (s : State) :
    exec (.ldy src) s = .next (((s.afterLoad src).setY (src.value s)).setNZ (src.value s)) := by
  rw [← src.value_consumeAll src.bytes s]
  rfl

theorem exec_sta (m : MemMode) (s : State) :
    exec (.sta m) s = .next (m.store s.a (State.consumeAll m.bytes s)) := by
  rw [← State.consumeAll_a m.bytes s]
  rfl

theorem exec_stx (m : MemMode) (s : State) :
    exec (.stx m) s = .next (m.store s.x (State.consumeAll m.bytes s)) := by
  rw [← State.consumeAll_x m.bytes s]
  rfl

theorem exec_sty (m : MemMode) (s : State) :
    exec (.sty m) s = .next (m.store s.y (State.consumeAll m.bytes s)) := by
  rw [← State.consumeAll_y m.bytes s]
  rfl

/-- The byte a pull answers, at the address as a number (rule R59). -/
theorem State.pull_fst_eq_read_ofNat (s : State) :
    s.pull.1 = s.mem.read (BitVec.ofNat 16 (0x100 + (s.sp.toNat + 1) % 256)) := by
  rw [State.pull_fst, State.stackAddr_eq_ofNat, BitVec.toNat_add]
  rfl

end Machine

namespace Claims

/-! ### What the handlers of this family leave alone -/

theorem memoryKept_of_mem_eq {s t : State} (hmem : t.mem = s.mem := by rfl) (hdirty : t.dirty = s.dirty := by rfl) :
    MemoryKept s t :=
  ⟨fun a => congrArg (Memory.read · a) hmem, hdirty⟩

/-- All that a sequential handler which ends with `SetNZ(v)` is known to do, where `u` is the state before it: N and Z are
from `v`, and flags, memory and the fields of the loop stay. -/
theorem setNZ_frame {i : Instr} {v : Byte} {s u : State} (hseq : i.pcClass = .sequential)
    (h : exec i s = .next (u.setNZ v)) (hp : u.p = s.p := by rfl) (hmem : u.mem = s.mem := by rfl)
    (hdirty : u.dirty = s.dirty := by rfl) (hdraws : u.draws = s.draws := by rfl) :
    NzFrom v (u.setNZ v) ∧ FlagsKept [.N, .Z] s (u.setNZ v) ∧ MemoryKept s (u.setNZ v)
      ∧ SequentialHandler i s (u.setNZ v) := by
  refine ⟨nzFrom_of_p_eq rfl, fun f hf => ?_, memoryKept_of_mem_eq hmem hdirty,
    sequentialHandler_of_exec hseq h hdraws⟩
  obtain ⟨hN, hZ⟩ : f ≠ .N ∧ f ≠ .Z := by simpa using hf
  rw [State.flag_setNZ, if_neg hN, if_neg hZ, State.flag, hp, State.flag]

/-- The same for a load, whose operand may come from memory. -/
theorem load_frame {i : Instr} {src : Source} {v : Byte} {s u : State} (hseq : i.pcClass = .sequential)
    (h : exec i s = .next (u.setNZ v)) (hp : u.p = (s.afterLoad src).p := by rfl)
    (hmem : u.mem = (s.afterLoad src).mem := by rfl) (hdirty : u.dirty = (s.afterLoad src).dirty := by rfl)
    (hdraws : u.draws = (s.afterLoad src).draws := by rfl) :
    NzFrom v (u.setNZ v) ∧ FlagsKept [.N, .Z] s (u.setNZ v) ∧ MemoryKept s (u.setNZ v)
      ∧ SequentialHandler i s (u.setNZ v) :=
  setNZ_frame hseq h (hp.trans (s.afterLoad_p src)) (hmem.trans (s.afterLoad_mem src))
    (hdirty.trans (s.afterLoad_dirty src)) (hdraws.trans (s.afterLoad_draws src))

/-- A handler that stores `v` at its effective address (rules R174 to R177). -/
theorem store_result {i : Instr} {m : MemMode} {v : Byte} {s : State} (hseq : i.pcClass = .sequential)
    (h : exec i s = .next (m.store v (State.consumeAll m.bytes s))) :
    ∃ t, exec i s = .next t ∧ StoresByte (m.address s) v s t ∧ RegsKept s t ∧ t.p = s.p
      ∧ SequentialHandler i s t := by
  refine ⟨_, h, storesByte_of_mem_eq ?_ rfl, ?_, ?_, sequentialHandler_of_exec hseq h ?_⟩
  · rw [MemMode.store_mem, State.consumeAll_mem, MemMode.address_consumeAll]
  · simp [RegsKept]
  · rw [MemMode.store_p, State.consumeAll_p]
  · rw [MemMode.store_draws, State.consumeAll_draws]

/-- A handler that pushes `v` (rules R178 to R181). -/
theorem push_result {i : Instr} {v : Byte} {s : State} (hseq : i.pcClass = .sequential)
    (h : exec i s = .next (s.push v)) :
    ∃ t, exec i s = .next t ∧ StoresByte (BitVec.ofNat 16 (0x100 + s.sp.toNat)) v s t
      ∧ t.sp = s.sp - 1 ∧ t.a = s.a ∧ t.x = s.x ∧ t.y = s.y ∧ t.p = s.p ∧ SequentialHandler i s t := by
  rw [← State.stackAddr_eq_ofNat]
  exact ⟨_, h, storesByte_of_mem_eq rfl rfl, rfl, rfl, rfl, rfl, rfl, sequentialHandler_of_exec hseq h rfl⟩

/-! ### The settled statements -/

/-- Settles O38: the three differ in the register written between the load and `SetNZ`. -/
theorem loadResults : Obligations.LoadResults := by
  intro src s
  have ha : (s.afterLoad src).a = s.a := s.afterLoad_a src
  have hx : (s.afterLoad src).x = s.x := s.afterLoad_x src
  have hy : (s.afterLoad src).y = s.y := s.afterLoad_y src
  have hsp : (s.afterLoad src).sp = s.sp := s.afterLoad_sp src
  exact ⟨⟨_, exec_lda src s, rfl, hx, hy, hsp, load_frame (src := src) rfl (exec_lda src s)⟩,
    ⟨_, exec_ldx src s, rfl, ha, hy, hsp, load_frame (src := src) rfl (exec_ldx src s)⟩,
    ⟨_, exec_ldy src s, rfl, ha, hx, hsp, load_frame (src := src) rfl (exec_ldy src s)⟩⟩

/-- Settles O39: the four differ in the byte alone. -/
theorem storeResults : Obligations.StoreResults := by
  rintro m s i v (⟨rfl, rfl⟩ | ⟨rfl, rfl⟩ | ⟨rfl, rfl⟩ | ⟨rfl, rfl⟩)
  · exact store_result rfl (exec_sta m s)
  · exact store_result rfl (exec_stx m s)
  · exact store_result rfl (exec_sty m s)
  · exact store_result rfl rfl

/-- Settles O40: the four differ in the byte alone. -/
theorem pushResults : Obligations.PushResults := by
  rintro s i v (⟨rfl, rfl⟩ | ⟨rfl, rfl⟩ | ⟨rfl, rfl⟩ | ⟨rfl, rfl⟩)
  all_goals exact push_result rfl rfl

/-- Settles O41: a pull moves SP and emits a record; PLP writes P in place of `SetNZ`. -/
theorem pullResults : Obligations.PullResults := by
  intro s v
  have hv : v = s.pull.1 := s.pull_fst_eq_read_ofNat.symm
  rw [hv]
  exact ⟨⟨_, rfl, rfl, rfl, rfl, rfl, setNZ_frame rfl rfl⟩,
    ⟨_, rfl, rfl, rfl, rfl, rfl, setNZ_frame rfl rfl⟩,
    ⟨_, rfl, rfl, rfl, rfl, rfl, setNZ_frame rfl rfl⟩,
    ⟨_, rfl, rfl, rfl, rfl, rfl, rfl, memoryKept_of_mem_eq, sequentialHandler_of_exec rfl rfl rfl⟩⟩

/-- Settles O42: each but TXS ends with `SetNZ`. -/
theorem transferResults : Obligations.TransferResults := by
  intro s
  exact ⟨⟨_, rfl, rfl, rfl, rfl, rfl, setNZ_frame rfl rfl⟩,
    ⟨_, rfl, rfl, rfl, rfl, rfl, setNZ_frame rfl rfl⟩,
    ⟨_, rfl, rfl, rfl, rfl, rfl, setNZ_frame rfl rfl⟩,
    ⟨_, rfl, rfl, rfl, rfl, rfl, setNZ_frame rfl rfl⟩,
    ⟨_, rfl, rfl, rfl, rfl, rfl, setNZ_frame rfl rfl⟩,
    ⟨_, rfl, rfl, rfl, rfl, rfl, rfl, memoryKept_of_mem_eq, sequentialHandler_of_exec rfl rfl rfl⟩⟩

end Claims

end Sys2Proof
end

section
/-! PROOFS. Logical and bit operations, branches and jumps (O43 to O52): one result for each shared form of handler, the
instructions of a family told apart by their rows in the statement's list, and a stack frame built push by push. -/

namespace Sys2Proof

open Machine

namespace Machine

/-! ### Bits and signed bytes (rules R10 and R205 to R208) -/

namespace Alu

theorem getLsbD_tsb (a v p : Byte) (k : Nat) : (tsb a v p).1.getLsbD k = (v.getLsbD k || a.getLsbD k) :=
  BitVec.getLsbD_or

theorem getLsbD_trb (a v p : Byte) {k : Nat} (hk : k < 8) :
    (trb a v p).1.getLsbD k = (v.getLsbD k && !a.getLsbD k) := by
  simp [trb, xor_ones_eq_not, hk]

/-- The mask of bit n has that bit alone. -/
theorem getLsbD_mask (n : Nat) {k : Nat} (hk : k < 8) : (1#8 <<< n).getLsbD k = decide (k = n) := by
  have hpow : (1#8 <<< n).getLsbD k = (decide (n < 8) && decide (n = k)) := BitVec.getLsbD_twoPow n k
  rw [hpow, Bool.eq_iff_iff]
  simp only [Bool.and_eq_true, decide_eq_true_eq]
  omega

theorem getLsbD_resetBit (n : Nat) (v : Byte) {k : Nat} (hk : k < 8) :
    (resetBit n v).getLsbD k = if k = n then false else v.getLsbD k := by
  rw [resetBit, xor_ones_eq_not, BitVec.getLsbD_and, BitVec.getLsbD_not, getLsbD_mask n hk]
  split <;> simp [*]

theorem getLsbD_setBit (n : Nat) (v : Byte) {k : Nat} (hk : k < 8) :
    (setBit n v).getLsbD k = if k = n then true else v.getLsbD k := by
  rw [setBit, BitVec.getLsbD_or, getLsbD_mask n hk]
  split <;> simp [*]

/-- A byte with bit n written, which RMB and SMB have in common. -/
def writeBit (n : Nat) (b : Bool) (v : Byte) : Byte := if b then setBit n v else resetBit n v

theorem getLsbD_writeBit (n : Nat) (b : Bool) (v : Byte) {k : Nat} (hk : k < 8) :
    (writeBit n b v).getLsbD k = if k = n then b else v.getLsbD k := by
  cases b with
  | false => exact getLsbD_resetBit n v hk
  | true => exact getLsbD_setBit n v hk

end Alu

/-- `int8` as the spec writes it (rule R10). -/
theorem int8_eq_ite (b : Byte) : int8 b = if b.toNat < 128 then (b.toNat : Int) else (b.toNat : Int) - 256 := by
  rw [int8, BitVec.toInt_eq_toNat_cond]
  split <;> split <;> omega

/-! ### The handlers once the operand bytes are consumed -/

theorem exec_and (src : Source) (s : State) :
    exec (.and src) s
      = .next (((s.afterLoad src).setA (s.a &&& src.value s)).setNZ (s.a &&& src.value s)) := by
  simp [exec, execAnd, State.setLogical, State.afterLoad]

theorem exec_eor (src : Source) (s : State) :
    exec (.eor src) s
      = .next (((s.afterLoad src).setA (s.a ^^^ src.value s)).setNZ (s.a ^^^ src.value s)) := by
  simp [exec, execEor, State.setLogical, State.afterLoad]

theorem exec_ora (src : Source) (s : State) :
    exec (.ora src) s
      = .next (((s.afterLoad src).setA (s.a ||| src.value s)).setNZ (s.a ||| src.value s)) := by
  simp [exec, execOra, State.setLogical, State.afterLoad]

theorem exec_bit_imm (b : Byte) (s : State) :
    exec (.bit (.imm b)) s = .next ((s.afterLoad (.imm b)).setP (Alu.bitImmediate s.a b s.p)) := rfl

theorem exec_bit_mem (m : MemMode) (s : State) :
    exec (.bit (.mem m)) s
      = .next ((s.afterLoad (.mem m)).setP (Alu.bitMemory s.a (s.mem.read (m.address s)) s.p)) := by
  simp [exec, execBit, State.testBits, State.afterLoad]

theorem exec_tsb (m : MemMode) (s : State) :
    exec (.tsb m) s = .next (m.modify (Alu.tsb s.a) (State.consumeAll m.bytes s)) := by
  rw [← State.consumeAll_a m.bytes s]
  rfl

theorem exec_trb (m : MemMode) (s : State) :
    exec (.trb m) s = .next (m.modify (Alu.trb s.a) (State.consumeAll m.bytes s)) := by
  rw [← State.consumeAll_a m.bytes s]
  rfl

theorem exec_jmp (tg : JumpTarget) (s : State) :
    exec (.jmp tg) s = .next ((tg.resolve (State.consumeAll tg.bytes s)).2.setPc (tg.address s)) := by
  rw [← tg.address_consumeAll tg.bytes s]
  rfl

namespace State

section
variable (v : Addr) (s : State)

@[simp] theorem pushAddr_a : (s.pushAddr v).a = s.a := rfl
@[simp] theorem pushAddr_x : (s.pushAddr v).x = s.x := rfl
@[simp] theorem pushAddr_y : (s.pushAddr v).y = s.y := rfl
@[simp] theorem pushAddr_p : (s.pushAddr v).p = s.p := rfl
@[simp] theorem pushAddr_draws : (s.pushAddr v).draws = s.draws := rfl

end

end State

theorem exec_jsr (target : Addr) (s : State) :
    exec (.jsr target) s
      = .next (((State.consumeAll (wordBytes target) s).pushAddr (s.pcAtFetch + 2)).setPc target) := rfl

end Machine

namespace Claims

/-! ### The rows of a family (rules R207 to R220) -/

/-- Each row of RMB and SMB is a sequential handler that reads its zero-page byte and writes it back with one bit
written. -/
theorem exec_of_mem_memoryBitWrites {z : Byte} {e : Instr × Nat × Bool} (h : e ∈ memoryBitWrites z) (s : State) :
    e.1.pcClass = .sequential ∧ exec e.1 s = .next
      (((s.consume z).busRead (zext16 z)).2.busWrite (zext16 z)
        (Alu.writeBit e.2.1 e.2.2 (s.mem.read (zext16 z)))) := by
  unfold memoryBitWrites at h
  fin_cases h <;> exact ⟨rfl, rfl⟩

/-- Each row of the branches is a relative handler that sets the displacement under the row's condition. -/
theorem exec_of_mem_branchConditions {s : State} {rel : Byte} {e : Instr × Bool}
    (h : e ∈ branchConditions s rel) :
    e.1.pcClass = .relative ∧ exec e.1 s = .next ((s.consume rel).branchIf e.2 rel) := by
  unfold branchConditions at h
  fin_cases h <;> exact ⟨rfl, rfl⟩

/-- Each row of BBR and BBS is a relative handler that sets the displacement where the row's bit is as the row says. -/
theorem exec_of_mem_bitBranches {z rel : Byte} {e : Instr × Nat × Bool} (h : e ∈ bitBranches z rel) (s : State) :
    e.1.pcClass = .relative ∧ exec e.1 s = .next
      ((((s.consume z).consume rel).busRead (zext16 z)).2.branchIf
        ((s.mem.read (zext16 z)).getLsbD e.2.1 == e.2.2) rel) := by
  unfold bitBranches at h
  fin_cases h <;> exact ⟨rfl, rfl⟩

/-! ### What the handlers of this family leave alone -/

/-- In the relative class pc, WAIT and phase stay (rule R87). -/
theorem relativeHandler_of_exec {i : Instr} {s t : State} (hrel : i.pcClass = .relative)
    (h : exec i s = .next t) (hdraws : t.draws = s.draws) : RelativeHandler i s t := by
  obtain ⟨hpc, -, hwait, hphase, -⟩ := handlersKeepPcClass i s t h
  rw [hrel] at hpc hwait hphase
  exact ⟨keepsCore_of_exec h, hpc nofun, hwait nofun, hphase nofun, hdraws⟩

/-- In the absolute class displacement, WAIT and phase stay (rule R87). -/
theorem absoluteHandler_of_exec {i : Instr} {s t : State} (habs : i.pcClass = .absolute)
    (h : exec i s = .next t) (hdraws : t.draws = s.draws) : AbsoluteHandler i s t := by
  obtain ⟨-, hdisplacement, hwait, hphase, -⟩ := handlersKeepPcClass i s t h
  rw [habs] at hdisplacement hwait hphase
  exact ⟨keepsCore_of_exec h, hdisplacement nofun, hwait nofun, hphase nofun, hdraws⟩

/-- A handler that writes a logical result (rules R201 to R203). -/
theorem logical_result {i : Instr} {src : Source} {f : Bool → Bool → Bool} {r : Byte} {s : State}
    (hseq : i.pcClass = .sequential) (h : exec i s = .next (((s.afterLoad src).setA r).setNZ r))
    (hbits : ∀ k, r.getLsbD k = f (s.a.getLsbD k) ((src.value s).getLsbD k)) :
    ∃ t, exec i s = .next t
      ∧ (∀ k, k < 8 → t.a.getLsbD k = f (s.a.getLsbD k) ((src.value s).getLsbD k))
      ∧ t.x = s.x ∧ t.y = s.y ∧ t.sp = s.sp ∧ NzFrom t.a t ∧ FlagsKept [.N, .Z] s t
      ∧ MemoryKept s t ∧ SequentialHandler i s t :=
  ⟨_, h, fun k _ => hbits k, s.afterLoad_x src, s.afterLoad_y src, s.afterLoad_sp src,
    load_frame (src := src) hseq h⟩

/-- A handler that loads its operand and writes P alone. -/
theorem loadStatus_frame {i : Instr} {src : Source} {q : Byte} {s : State} (hseq : i.pcClass = .sequential)
    (h : exec i s = .next ((s.afterLoad src).setP q)) :
    RegsKept s ((s.afterLoad src).setP q) ∧ MemoryKept s ((s.afterLoad src).setP q)
      ∧ SequentialHandler i s ((s.afterLoad src).setP q) :=
  ⟨⟨s.afterLoad_a src, s.afterLoad_x src, s.afterLoad_y src, s.afterLoad_sp src⟩,
    memoryKept_of_mem_eq (s.afterLoad_mem src) (s.afterLoad_dirty src),
    sequentialHandler_of_exec hseq h (s.afterLoad_draws src)⟩

/-- A handler that tests A against a byte in memory and writes that byte back changed (rules R205 and R206). -/
theorem testAndWrite_result {i : Instr} {m : MemMode} {g : Byte → Byte → Byte × Byte} {f : Bool → Bool → Bool}
    {s : State} (hseq : i.pcClass = .sequential)
    (h : exec i s = .next (m.modify g (State.consumeAll m.bytes s)))
    (hstatus : ∀ v p, (g v p).2 = Status.setFlag .Z (s.a &&& v == 0) p)
    (hbits : ∀ v p k, k < 8 → (g v p).1.getLsbD k = f (s.a.getLsbD k) (v.getLsbD k)) :
    ∃ t v, exec i s = .next t ∧ StoresByte (m.address s) v s t
      ∧ (∀ k, k < 8 → v.getLsbD k = f (s.a.getLsbD k) ((s.mem.read (m.address s)).getLsbD k))
      ∧ t.flag .Z = decide (s.a &&& s.mem.read (m.address s) = 0x00#8)
      ∧ FlagsKept [.Z] s t ∧ RegsKept s t ∧ SequentialHandler i s t := by
  obtain ⟨⟨ha, hstore⟩, hp, hx, hy, hsp, hhandler⟩ := modify_result (tg := .mem m) hseq h rfl
  rw [hstatus] at hp
  refine ⟨_, _, h, hstore, hbits _ _, ?_, fun k hk => ?_, ⟨ha, hx, hy, hsp⟩, hhandler⟩
  · rw [State.flag, hp, Status.flag_setFlag, if_pos rfl]
    rfl
  · rw [State.flag, hp, Status.flag_setFlag, if_neg (List.ne_of_not_mem_cons hk), State.flag]

/-- A handler that sets the displacement under a condition and besides moves the cursor and reads memory at most (rules
R209 and R219). -/
theorem branch_result {i : Instr} {cond : Bool} {rel : Byte} {s u : State} (hrel : i.pcClass = .relative)
    (h : exec i s = .next (u.branchIf cond rel)) (hregs : RegsKept s u := by exact ⟨rfl, rfl, rfl, rfl⟩)
    (hp : u.p = s.p := by rfl) (hmem : u.mem = s.mem := by rfl) (hdirty : u.dirty = s.dirty := by rfl)
    (hdraws : u.draws = s.draws := by rfl)
    (hdisplacement : u.branchDisplacement = s.branchDisplacement := by rfl) :
    ∃ t, exec i s = .next t
      ∧ t.branchDisplacement = (if cond = true then
          (if rel.toNat < 128 then (rel.toNat : Int) else (rel.toNat : Int) - 256)
          else s.branchDisplacement)
      ∧ RegsKept s t ∧ t.p = s.p ∧ MemoryKept s t ∧ RelativeHandler i s t := by
  refine ⟨_, h, ?_, hregs, hp, memoryKept_of_mem_eq hmem hdirty, relativeHandler_of_exec hrel h hdraws⟩
  rw [State.branchIf_branchDisplacement, hdisplacement, int8_eq_ite]

/-! ### Stack frames (rules R58 to R60) -/

/-- The bytes of a frame lie at different addresses. -/
theorem stackAddr_sub_ne (sp : Byte) {j k : Nat} (hjk : j < k) (hk : k < 256) :
    State.stackAddr (sp - BitVec.ofNat 8 j) ≠ State.stackAddr (sp - BitVec.ofNat 8 k) := by
  intro h
  have hsp := State.stackAddr_inj h
  bv_omega

/-- One push is a frame of one byte. -/
theorem pushesFrame_push (v : Byte) (s : State) : PushesFrame [v] s (s.push v) := by
  obtain ⟨hself, hother, hdirty⟩ := storesByte_busWrite (State.stackAddr s.sp) v s
  have hsp : s.sp - BitVec.ofNat 8 0 = s.sp := BitVec.sub_zero s.sp
  refine ⟨fun hm k w hw => ?_, fun a ha => hother a (hsp ▸ ha 0 Nat.zero_lt_one), rfl, hdirty⟩
  obtain ⟨rfl, rfl⟩ : k = 0 ∧ v = w := by simpa [List.getElem?_singleton] using hw
  rw [hsp]
  exact hself hm

/-- One more push adds a byte to a frame that does not fill the page. -/
theorem PushesFrame.push {vs : List Byte} {s t : State} (h : PushesFrame vs s t) (hwf : s.mem.wf → t.mem.wf)
    (hlength : vs.length < 256) (v : Byte) : PushesFrame (vs ++ [v]) s (t.push v) := by
  obtain ⟨hbytes, hothers, hsp, -⟩ := h
  have hmem : (t.push v).mem = t.mem.write (State.stackAddr (s.sp - BitVec.ofNat 8 vs.length)) v := by
    rw [← hsp]
    rfl
  refine ⟨fun hm k w hw => ?_, fun a ha => ?_, ?_, rfl⟩
  · rw [hmem]
    rcases lt_or_ge k vs.length with hk | hk
    · rw [List.getElem?_append_left hk] at hw
      rw [Memory.read_write_ne _ _ (stackAddr_sub_ne s.sp hk hlength), hbytes hm k w hw]
    · rw [List.getElem?_append_right hk] at hw
      obtain ⟨hsub, rfl⟩ : k - vs.length = 0 ∧ v = w := by simpa [List.getElem?_singleton] using hw
      rw [Nat.le_antisymm (Nat.sub_eq_zero_iff_le.1 hsub) hk, Memory.read_write_self (hwf hm)]
  · rw [List.length_append] at ha
    rw [hmem, Memory.read_write_ne _ _ (ha _ (Nat.lt_succ_self _)), hothers a fun k hk => ha k (Nat.lt_succ_of_lt hk)]
  · rw [State.push_eq, State.setSp_sp, hsp, List.length_append, BitVec.ofNat_add, ← BitVec.sub_sub]
    rfl

/-- A 16-bit value pushed is a frame of its two bytes, high byte first (rule R222). -/
theorem pushesFrame_pushAddr (v : Addr) (s : State) : PushesFrame [hiByte v, loByte v] s (s.pushAddr v) :=
  (pushesFrame_push (hiByte v) s).push (fun hm => Memory.wf_write hm _ _) Nat.one_lt_ofNat (loByte v)

/-- Consuming operand bytes leaves what a frame is pushed on. -/
theorem PushesFrame.of_consumeAll {vs : List Byte} {bs : List Byte} {s t : State}
    (h : PushesFrame vs (State.consumeAll bs s) t) : PushesFrame vs s t := by
  simpa only [PushesFrame, State.consumeAll_mem, State.consumeAll_sp] using h

/-- A 16-bit value pulled is the stack's next two bytes (rule R223). -/
theorem pullAddr_fst (s : State) : s.pullAddr.1 = stackWord s 0 := by
  have hsp : s.sp + 1 + 1 = s.sp + 2 := BitVec.add_assoc s.sp 1 1
  rw [State.pullAddr, State.pull_fst, State.pull_fst, State.pull_snd, State.emit_sp, State.setSp_sp, hsp]
  rfl

/-- A frame of two bytes reads back from the stack, in a memory in its canonical form. -/
theorem stackWord_of_pushesFrame {v : Addr} {s t : State} (h : PushesFrame [hiByte v, loByte v] s t) (hm : s.mem.wf) :
    stackWord t 0 = v := by
  obtain ⟨hbytes, -, hsp, -⟩ := h
  replace hsp : t.sp = s.sp - 2 := hsp
  have hlo : t.sp + BitVec.ofNat 8 (0 + 1) = s.sp - BitVec.ofNat 8 1 := by bv_omega
  have hhi : t.sp + BitVec.ofNat 8 (0 + 2) = s.sp - BitVec.ofNat 8 0 := by bv_omega
  rw [stackWord, hlo, hhi, hbytes hm 0 _ rfl, hbytes hm 1 _ rfl, word_lo_hi]

/-! ### The settled statements -/

/-- Settles O43: the three differ in the operation on bytes alone. -/
theorem logicalResults : Obligations.LogicalResults := by
  rintro src s i f (⟨rfl, rfl⟩ | ⟨rfl, rfl⟩ | ⟨rfl, rfl⟩)
  · exact logical_result rfl (exec_and src s) fun _ => BitVec.getLsbD_and
  · exact logical_result rfl (exec_eor src s) fun _ => BitVec.getLsbD_xor
  · exact logical_result rfl (exec_ora src s) fun _ => BitVec.getLsbD_or

/-- Settles O44: the two forms differ in the flags they write. -/
theorem bitTest : Obligations.BitTest := by
  intro s b m
  refine ⟨⟨_, exec_bit_imm b s, ?_, fun f hf => ?_, loadStatus_frame rfl (exec_bit_imm b s)⟩,
    ⟨_, exec_bit_mem m s, ?_, ?_, ?_, fun f hf => ?_, loadStatus_frame rfl (exec_bit_mem m s)⟩⟩
  · simp [Alu.bitImmediate, beq_eq_decide]
  · cases f <;> simp [Alu.bitImmediate, State.flag] at hf ⊢
  · simp [Alu.bitMemory, beq_eq_decide]
  · simp [Alu.bitMemory]
  · simp [Alu.bitMemory]
  · cases f <;> simp [Alu.bitMemory, State.flag] at hf ⊢

/-- Settles O45: the two differ in the byte alone. -/
theorem testAndSetReset : Obligations.TestAndSetReset := by
  rintro m s i f (⟨rfl, rfl⟩ | ⟨rfl, rfl⟩)
  · exact testAndWrite_result (f := fun a v => v || a) rfl (exec_tsb m s) (fun _ _ => rfl)
      fun v p k _ => Alu.getLsbD_tsb s.a v p k
  · exact testAndWrite_result (f := fun a v => v && !a) rfl (exec_trb m s) (fun _ _ => rfl)
      fun v p _ hk => Alu.getLsbD_trb s.a v p hk

/-- Settles O46: all sixteen write one bit of the zero-page byte. -/
theorem memoryBitResetSet : Obligations.MemoryBitResetSet := by
  intro s z i n b h
  obtain ⟨hseq, hexec⟩ := exec_of_mem_memoryBitWrites h s
  rw [← zext16_eq_ofNat]
  exact ⟨_, _, hexec, storesByte_of_mem_eq rfl rfl, fun k hk => Alu.getLsbD_writeBit n b _ hk,
    ⟨rfl, rfl, rfl, rfl⟩, rfl, sequentialHandler_of_exec hseq hexec rfl⟩

/-- Settles O47: all nine are a branch under the condition of their row. -/
theorem branchResults : Obligations.BranchResults := by
  intro s rel i cond h
  obtain ⟨hrel, hexec⟩ := exec_of_mem_branchConditions h
  exact branch_result hrel hexec

/-- Settles O48: all sixteen are a branch under a bit of the zero-page byte. -/
theorem bitBranchResults : Obligations.BitBranchResults := by
  intro s z rel i n want h
  obtain ⟨hrel, hexec⟩ := exec_of_mem_bitBranches h s
  simpa only [zext16_eq_ofNat, beq_iff_eq] using branch_result hrel hexec

/-- Settles O49: the pointer reads of a form leave all but the trace. -/
theorem jmpResult : Obligations.JmpResult := by
  intro tg s
  refine ⟨_, exec_jmp tg s, rfl, ?_, ?_, memoryKept_of_mem_eq ?_ ?_,
    absoluteHandler_of_exec rfl (exec_jmp tg s) ?_⟩ <;>
    simp [RegsKept]

/-- Settles O50: the frame is the two pushes of rule R222. -/
theorem jsrResult : Obligations.JsrResult := by
  intro target s
  refine ⟨_, exec_jsr target s, rfl, (pushesFrame_pushAddr (s.pcAtFetch + 2) _).of_consumeAll, ?_, ?_, ?_, ?_,
    absoluteHandler_of_exec rfl (exec_jsr target s) ?_⟩ <;>
    simp

/-- Settles O51: the pulled address is the stack's next two bytes. -/
theorem rtsResult : Obligations.RtsResult := by
  intro s
  refine ⟨_, rfl, congrArg (· + 1) (pullAddr_fst s), ?_, rfl, rfl, rfl, rfl, memoryKept_of_mem_eq,
    absoluteHandler_of_exec rfl rfl rfl⟩
  exact BitVec.add_assoc s.sp 1 1

/-- Settles O52: RTS pulls the frame that JSR pushed, and its two pulls take SP back over the two pushes. -/
theorem rtsReturnsFromJsr : Obligations.RtsReturnsFromJsr := by
  intro target s hm
  obtain ⟨t, ht, -, hframe, -⟩ := jsrResult target s
  obtain ⟨u, hu, hpc, hsp, -⟩ := rtsResult t
  have ⟨_, _, hpushed, _⟩ := hframe
  refine ⟨t, u, ht, hu, ?_, ?_⟩
  · rw [hpc, stackWord_of_pushesFrame hframe hm]
    exact BitVec.add_assoc s.pcAtFetch 2 1
  · rw [hsp, hpushed]
    exact BitVec.sub_add_cancel s.sp 2

end Claims

end Sys2Proof
end

section
/-! PROOFS. Flags, increments, decrements and interrupt control (O28, O53 to O58): one result for each shared form of
handler, the frame that taking the vector pushes, and an iteration around a handler that does nothing. -/

namespace Sys2Proof

open Machine

namespace Machine

/-! ### Bytes (rule R239) -/

/-- One less mod 256 is 255 more. -/
theorem Alu.toNat_sub_one (v : Byte) : (v - 1).toNat = (v.toNat + 255) % 256 := by
  rw [BitVec.toNat_sub, Nat.add_comm]
  rfl

/-! ### Taking the vector (rules R61, R244 and R265) -/

namespace State

section
variable (ret : Addr) (status : Byte) (s : State)

@[simp] theorem enterVector_a : (s.enterVector ret status).a = s.a := by rw [enterVector_spec]
@[simp] theorem enterVector_x : (s.enterVector ret status).x = s.x := by rw [enterVector_spec]
@[simp] theorem enterVector_y : (s.enterVector ret status).y = s.y := by rw [enterVector_spec]
@[simp] theorem enterVector_draws : (s.enterVector ret status).draws = s.draws := by rw [enterVector_spec]

@[simp] theorem flag_enterVector (f : Flag) :
    (s.enterVector ret status).flag f = if f = .I then true else s.flag f := by
  rw [enterVector_spec]
  exact flag_setFlag f .I true s

/-- The vector is read as it was before the pushes, which lie in another page. -/
@[simp] theorem enterVector_pc : (s.enterVector ret status).pc = word (s.mem.read vectorLo) (s.mem.read vectorHi) := by
  rw [enterVector_spec]

end

end State

theorem exec_brk (sig : Byte) (s : State) :
    exec (.brk sig) s = .next
      (((s.consume sig).enterVector (s.pcAtFetch + 2) (s.p ||| Status.pushedBreakBits)).setFlag .D false) := rfl

end Machine

namespace Claims

/-! ### Flags and increments (rules R230 to R243) -/

/-- Each row of the flag instructions is a sequential handler that writes the row's flag alone. -/
theorem exec_of_mem_flagWrites {e : Instr × Flag × Bool} (h : e ∈ flagWrites) (s : State) :
    e.1.pcClass = .sequential ∧ exec e.1 s = .next (s.setFlag e.2.1 e.2.2) := by
  unfold flagWrites at h
  fin_cases h <;> exact ⟨rfl, rfl⟩

/-- A status byte written by `SetNZ` has every flag but N and Z as before. -/
theorem flagsKept_of_p_eq {v : Byte} {s t : State} (h : t.p = Status.setNZ v s.p) : FlagsKept [.N, .Z] s t := by
  intro f hf
  obtain ⟨hN, hZ⟩ : f ≠ .N ∧ f ≠ .Z := by simpa using hf
  rw [State.flag, h, Status.flag_setNZ, if_neg hN, if_neg hZ, State.flag]

/-- A read-modify-write handler whose result is `v`, with N and Z from it and no other flag written (rules R238 and
R239). -/
theorem modify_setNZ_result {i : Instr} {tg : RmwTarget} {f : Byte → Byte → Byte × Byte} {v : Byte} {s : State}
    (hseq : i.pcClass = .sequential) (h : exec i s = .next (tg.modify f (State.consumeAll tg.bytes s)))
    (hf : f (tg.value s) s.p = (v, Status.setNZ v s.p)) :
    ∃ t, exec i s = .next t ∧ RmwResult tg v s t ∧ NzFrom v t ∧ FlagsKept [.N, .Z] s t
      ∧ t.x = s.x ∧ t.y = s.y ∧ t.sp = s.sp ∧ SequentialHandler i s t := by
  obtain ⟨hresult, hp, hframe⟩ := modify_result hseq h rfl
  rw [hf] at hresult hp
  exact ⟨_, h, hresult, nzFrom_of_p_eq hp, flagsKept_of_p_eq hp, hframe⟩

/-! ### Stack frames (rules R244 and R265) -/

/-- Taking the vector pushes the return address, high byte first, and then the status. -/
theorem pushesFrame_enterVector (ret : Addr) (status : Byte) (s : State) :
    PushesFrame [hiByte ret, loByte ret, status] s (s.enterVector ret status) :=
  (pushesFrame_pushAddr ret s).push (fun hm => Memory.wf_write (Memory.wf_write hm _ _) _ _) (show 2 < 256 by decide)
    status

/-! ### An iteration around a handler that does nothing (rules R117, R129 and R264) -/

/-- A device call that neither writes nor asserts uses up its reply. -/
theorem deviceSync_of_quietNext {s : State} (h : QuietNext s) :
    s.deviceSync = { s with
      device := s.device.rest
      deviceCalls := s.deviceCalls + 1
      dirty := false } := by
  have hreply : s.nextReply = .quiet := by
    obtain h | ⟨later, h⟩ := h <;> simp only [State.nextReply, h, DeviceReply.quiet]
  rw [State.deviceSync_eq, hreply, DeviceReply.quiet, Bool.or_false, Memory.writes]

/-- Where nothing waits, IO_SYNC with such a call leads to INTERRUPT_CHECK. -/
theorem fromIoSync_of_quietNext {s : State} (hwait : s.wait = false) (h : QuietNext s) :
    s.fromIoSync = State.interruptCheck { s with
      device := s.device.rest
      deviceCalls := s.deviceCalls + 1
      dirty := false
      phase := .interruptCheck } := by
  rw [State.fromIoSync, State.ioSync, deviceSync_of_quietNext h, State.afterSync, State.mustWait, hwait]
  rfl

/-- The whole of an iteration whose handler does nothing, where no injection is due. -/
theorem fetchPhase_afterHandler {s : State} (h : QuietNext s)
    (hnone : s.interruptPending = false ∨ s.flag .I = true) :
    s.fetchPhase.afterHandler = { s with
      pc := s.pc + 1
      dirty := false
      wait := false
      decodeOffset := 1
      branchDisplacement := 0
      pcAtFetch := s.pc
      currentOpcode := s.mem.read s.pc
      phase := .fetch
      device := s.device.rest
      deviceCalls := s.deviceCalls + 1
      trace := ⟨s.pc, .read, s.mem.read s.pc⟩ :: s.trace } := by
  have hpc : s.fetchPhase.resolvePc.pc = s.pc + 1 := by
    rw [State.resolvePc_pc_of_eq_zero rfl rfl, BitVec.ofNat_add, BitVec.ofNat_toNat, BitVec.setWidth_eq]
    rfl
  have hne : s.fetchPhase.phase ≠ .haltFlush := show Phase.dispatch ≠ .haltFlush from nofun
  rw [State.afterHandler_of_ne hne, State.fromResolvePc, fromIoSync_of_quietNext (s := s.fetchPhase.resolvePc) rfl h]
  refine (State.interruptCheck_pass ?_).trans ?_
  · exact hnone
  · rw [hpc]
    simp only [State.resolvePc, State.fetchPhase_eq]

/-! ### The settled statements -/

/-- Settles O28: by O8 such a step runs no handler, and the 44 bytes are those outside the default set. -/
theorem unmappedIterationOnlyAdvancesPc : Obligations.UnmappedIterationOnlyAdvancesPc := by
  intro s hphase hquiet hnone
  have hstep (P : Params) (h : P.mappedSet (s.mem.read s.pc) = false) :
      stepUnder P s = .next s.fetchPhase.afterHandler :=
    ((stepRunsDecodedInstruction s hphase).2 P).1 h
  refine ⟨s.fetchPhase.afterHandler, ?_⟩
  rw [fetchPhase_afterHandler hquiet hnone] at hstep ⊢
  exact ⟨rfl, rfl, ⟨rfl, rfl, rfl, rfl⟩, rfl, rfl, rfl, rfl,
    fun h => hstep Params.default (Decode.mapped_eq_false.2 h), hstep⟩

/-- Settles O53: all seven write the flag of their row. -/
theorem flagInstructions : Obligations.FlagInstructions := by
  intro s i f b h
  obtain ⟨hseq, hexec⟩ := exec_of_mem_flagWrites h s
  refine ⟨_, hexec, ?_, fun g hg => ?_, ⟨rfl, rfl, rfl, rfl⟩, memoryKept_of_mem_eq,
    sequentialHandler_of_exec hseq hexec rfl⟩
  · rw [State.flag_setFlag, if_pos rfl]
  · rw [State.flag_setFlag, if_neg (List.ne_of_not_mem_cons hg)]

/-- Settles O54: the two differ in the result alone. -/
theorem incDecResults : Obligations.IncDecResults := by
  rintro tg s i r (⟨rfl, rfl⟩ | ⟨rfl, rfl⟩)
  · obtain ⟨t, h, hframe⟩ := modify_setNZ_result (i := .inc tg) (s := s) (f := Alu.inc) rfl rfl rfl
    exact ⟨t, _, h, BitVec.toNat_add .., hframe⟩
  · obtain ⟨t, h, hframe⟩ := modify_setNZ_result (i := .dec tg) (s := s) (f := Alu.dec) rfl rfl rfl
    exact ⟨t, _, h, Alu.toNat_sub_one _, hframe⟩

/-- Settles O55: each writes its index and ends with `SetNZ`. -/
theorem indexIncDec : Obligations.IndexIncDec := by
  intro s
  exact ⟨⟨_, rfl, BitVec.toNat_add .., rfl, rfl, rfl, setNZ_frame rfl rfl⟩,
    ⟨_, rfl, BitVec.toNat_add .., rfl, rfl, rfl, setNZ_frame rfl rfl⟩,
    ⟨_, rfl, Alu.toNat_sub_one s.x, rfl, rfl, rfl, setNZ_frame rfl rfl⟩,
    ⟨_, rfl, Alu.toNat_sub_one s.y, rfl, rfl, rfl, setNZ_frame rfl rfl⟩⟩

/-- Settles O56: taking the vector sets I, and BRK clears D after it. -/
theorem brkResult : Obligations.BrkResult := by
  intro sig s
  refine ⟨_, exec_brk sig s, pushesFrame_enterVector _ _ (s.consume sig), ?_, ?_, fun f hf => ?_, ?_, ?_, ?_, ?_,
    absoluteHandler_of_exec rfl (exec_brk sig s) ?_⟩
  · simp
  · simp
  · obtain ⟨hI, hD⟩ : f ≠ .I ∧ f ≠ .D := by simpa using hf
    rw [State.flag_setFlag, if_neg hD, State.flag_enterVector, if_neg hI]
    rfl
  · rw [State.setFlag_pc, State.enterVector_pc]
    rfl
  all_goals simp

/-- Settles O57: the return is three pulls. -/
theorem rtiResult : Obligations.RtiResult := by
  intro s
  have hsp (k : Byte) : s.sp + 1 + k = s.sp + (1 + k) := BitVec.add_assoc s.sp 1 k
  have hexec : exec .rti s = .next s.returnFromVector := rfl
  rw [State.returnFromVector_spec, hsp, BitVec.add_assoc s.sp] at hexec
  exact ⟨_, hexec, s.pull_fst_eq_read_ofNat, rfl, rfl, rfl, rfl, rfl, memoryKept_of_mem_eq,
    absoluteHandler_of_exec rfl hexec rfl⟩

/-- Settles O58: each handler is its one update. -/
theorem waiStpNopUnmapped : Obligations.WaiStpNopUnmapped := fun _ _ => ⟨rfl, rfl, rfl, rfl⟩

end Claims

end Sys2Proof
end

section
/-! PROOFS. Interrupt injection (O23 to O26): where INTERRUPT_CHECK injects, all that an injection does, the return that
undoes it, and the phases through which a pending request lasts. -/

namespace Sys2Proof

open Machine

namespace Machine

namespace State

/-! ### A pending request (rules R262 and R264) -/

/-- A pending request ends the wait (rule R118). -/
theorem mustWait_of_pending {s : State} (h : s.interruptPending = true) : s.mustWait = false := by
  rw [mustWait, h, Bool.not_true, Bool.and_false]

theorem afterSync_of_pending {s : State} (h : s.interruptPending = true) : s.afterSync = s.interruptCheck := by
  rw [afterSync, mustWait_of_pending h]
  rfl

/-- A device call never clears the request (rule R123). -/
theorem deviceSync_pending {s : State} (h : s.interruptPending = true) : s.deviceSync.interruptPending = true := by
  rw [deviceSync_eq, h, Bool.true_or]

/-- How a phase may end that started with a request pending: it is pending still, or an injection of a state in which
it was pending and I was clear has ended the phase (rules R262 and R264). -/
def PendingOrInjected (t : State) : Prop :=
  t.interruptPending = true
    ∨ ∃ u : State, u.interruptPending = true ∧ u.flag .I = false ∧ t = { u.inject with phase := .fetch }

theorem pendingOrInjected_interruptCheck {s : State} (h : s.interruptPending = true) :
    PendingOrInjected s.interruptCheck := by
  by_cases hI : s.flag .I = true
  · rw [interruptCheck_pass (.inr hI)]
    exact .inl h
  · rw [Bool.not_eq_true] at hI
    exact .inr ⟨s, h, hI, interruptCheck_inject h hI⟩

theorem pendingOrInjected_fromIoSync {s : State} (h : s.interruptPending = true) : PendingOrInjected s.fromIoSync := by
  have hsync : s.ioSync.interruptPending = true := deviceSync_pending h
  rw [fromIoSync, afterSync_of_pending hsync]
  exact pendingOrInjected_interruptCheck hsync

theorem pendingOrInjected_afterHandler {s : State} (h : s.interruptPending = true) :
    PendingOrInjected s.afterHandler := by
  by_cases hhalt : s.phase = .haltFlush
  · rw [afterHandler_halt hhalt]
    exact .inl (deviceSync_pending (s := s.drawHaltPc) h)
  · rw [afterHandler_of_ne hhalt]
    exact pendingOrInjected_fromIoSync (s := s.resolvePc) h

/-- No reference handler writes the request (rule R111). -/
theorem pendingOrInjected_afterHandler_of_exec {i : Instr} {s u : State} (h : s.interruptPending = true)
    (hu : exec i s = .next u) : PendingOrInjected u.afterHandler :=
  pendingOrInjected_afterHandler ((keepsOutside_of_exec hu).interruptPending.trans h)

/-- A step keeps a pending request or ends in an injection, from whatever phase it starts. -/
theorem step_pendingOrInjected {s t : State} (h : s.interruptPending = true) (hstep : step s = .next t) :
    PendingOrInjected t := by
  obtain ⟨-, u, hu, rfl⟩ | ⟨-, u, hu, rfl⟩ | ⟨-, rfl⟩ | ⟨-, rfl⟩ | ⟨-, rfl⟩ | ⟨-, rfl⟩ | ⟨-, rfl⟩ := step_next hstep
  · exact pendingOrInjected_afterHandler_of_exec (s := s.fetchPhase) h hu
  · exact pendingOrInjected_afterHandler_of_exec h hu
  · exact pendingOrInjected_fromIoSync (s := s.resolvePc) h
  · exact pendingOrInjected_fromIoSync h
  · rw [waitPoll_of_not_mustWait (mustWait_of_pending h)]
    exact pendingOrInjected_interruptCheck h
  · exact pendingOrInjected_interruptCheck h
  · exact .inl (deviceSync_pending h)

end State

end Machine

namespace Claims

/-! ### The injection's frame (rules R265 and R270) -/

/-- Injection pushes pc, high byte first, and then P. -/
theorem pushesFrame_inject (s : State) : PushesFrame [hiByte s.pc, loByte s.pc, s.p] s s.inject :=
  pushesFrame_enterVector s.pc s.p { s with icState := .servicing }

/-- A frame of a 16-bit value and a byte reads back from the stack, the byte first, in a memory in its canonical
form. -/
theorem read_of_pushesFrame {v : Addr} {p : Byte} {s t : State} (h : PushesFrame [hiByte v, loByte v, p] s t)
    (hm : s.mem.wf) :
    t.mem.read (State.stackAddr (t.sp + 1)) = p ∧ stackWord t 1 = v := by
  obtain ⟨hbytes, -, hsp, -⟩ := h
  replace hsp : t.sp = s.sp - 3 := hsp
  have hstatus : t.sp + 1 = s.sp - BitVec.ofNat 8 2 := by bv_omega
  have hlo : t.sp + BitVec.ofNat 8 (1 + 1) = s.sp - BitVec.ofNat 8 1 := by bv_omega
  have hhi : t.sp + BitVec.ofNat 8 (1 + 2) = s.sp - BitVec.ofNat 8 0 := by bv_omega
  rw [stackWord, hstatus, hlo, hhi, hbytes hm 0 _ rfl, hbytes hm 1 _ rfl, hbytes hm 2 _ rfl]
  exact ⟨rfl, word_lo_hi v⟩

/-! ### The settled statements -/

/-- Settles O23: INTERRUPT_CHECK's two branches. -/
theorem injectionEligibility : Obligations.InjectionEligibility := by
  refine fun s => ⟨fun ⟨hp, hI⟩ => State.interruptCheck_inject hp hI, fun h => State.interruptCheck_pass ?_⟩
  rwa [not_and_or, Bool.not_eq_true, Bool.not_eq_false] at h

/-- Settles O24: an injection takes the vector, saving the pc and P as they stand. -/
theorem injectionEffects : Obligations.InjectionEffects := by
  intro s
  have hsp : s.sp - 1 - 1 = s.sp - 2 := BitVec.sub_sub s.sp 1 1
  have hflag (f : Flag) : s.inject.flag f = if f = .I then true else s.flag f :=
    State.flag_enterVector s.pc s.p { s with icState := .servicing } f
  refine ⟨?_, pushesFrame_inject s, ?_, ?_, fun f hf => ?_, ?_⟩
  · rw [State.inject_spec]
  · rw [State.inject_spec]
    rfl
  · rw [hflag, if_pos rfl]
  · rw [hflag, if_neg (List.ne_of_not_mem_cons hf)]
  · rw [State.inject_spec, hsp]
    rfl

/-- Settles O25: RTI pulls the frame that the injection pushed, and its three pulls take SP back over the three
pushes. -/
theorem rtiReversesInjection : Obligations.RtiReversesInjection := by
  intro s hm
  have hframe := pushesFrame_inject s
  obtain ⟨hstatus, hreturn⟩ := read_of_pushesFrame hframe hm
  obtain ⟨t, ht, hp, hpc, hsp, ha, hx, hy, -⟩ := rtiResult s.inject
  have ⟨_, _, hpushed, _⟩ := hframe
  refine ⟨t, ht, hpc.trans hreturn, ?_, ?_, ?_, ?_, ?_⟩
  · rw [hp, ← State.pull_fst_eq_read_ofNat]
    exact hstatus
  · rw [hsp, hpushed]
    exact BitVec.sub_add_cancel s.sp 3
  · rw [ha, State.inject_spec]
  · rw [hx, State.inject_spec]
  · rw [hy, State.inject_spec]

/-- Settles O26: what every phase keeps leaves the injection as the one way to clear the request. -/
theorem requestClearedOnlyByInjection : Obligations.RequestClearedOnlyByInjection := by
  intro s t hpending hstep hcleared
  obtain hstill | hinjected := State.step_pendingOrInjected hpending hstep
  · exact absurd (hstill.symm.trans hcleared) nofun
  · exact hinjected

end Claims

end Sys2Proof
end

section
/-! PROOFS. The launch and CLI's boundary (O13, O59): the state that `init()` leaves, and a step at CLI up to its
INTERRUPT_CHECK. -/

namespace Sys2Proof

open Machine

namespace Claims

/-! ### CLI's step (rules R233 and R297) -/

/-- CLI where the device's next call is quiet: the step ends in an INTERRUPT_CHECK that sees the pc one further and I
clear, with the memory, SP and request that FETCH found (rules R233 and R297). -/
theorem step_cli_interruptCheck {s : State} (hphase : s.phase = .fetch) (hop : s.mem.read s.pc = 0x58#8)
    (hquiet : QuietNext s) :
    ∃ u : State, step s = .next u.interruptCheck
      ∧ u.pc = s.pc + 1 ∧ u.flag .I = false
      ∧ u.mem = s.mem ∧ u.sp = s.sp ∧ u.interruptPending = s.interruptPending := by
  have hinstr : s.fetchPhase.instructionInFlight = .cli := by
    rw [State.instructionInFlight_fetchPhase, hop]
    rfl
  have hexec : exec .cli s.fetchPhase = .next (s.fetchPhase.setFlag .I false) := rfl
  have hpc : (s.fetchPhase.setFlag .I false).resolvePc.pc = s.pc + 1 :=
    ((pcAfterResolve .cli s _ hexec).1 (.inl rfl)).trans (add_one_eq_ofNat s.pc).symm
  have hstep : step s = .next (s.fetchPhase.setFlag .I false).afterHandler := by
    rw [step_fetch hphase, hinstr, hexec]
    rfl
  rw [State.afterHandler_of_ne (show Phase.dispatch ≠ .haltFlush from nofun), State.fromResolvePc,
    fromIoSync_of_quietNext (s := (s.fetchPhase.setFlag .I false).resolvePc) rfl hquiet] at hstep
  exact ⟨_, hstep, hpc, State.flag_setFlag .I .I false s.fetchPhase, rfl, rfl, rfl⟩

/-! ### The settled statements -/

/-- Settles O59: INTERRUPT_CHECK finds the request pending and I clear, so it injects, and the injection pushes the pc
and the status that CLI left. -/
theorem cliInjectsAtItsOwnBoundary : Obligations.CliInjectsAtItsOwnBoundary := by
  intro s hphase hop hpending hm hquiet
  obtain ⟨u, hstep, hpc, hI, hmem, hsp, hrequest⟩ := step_cli_interruptCheck hphase hop hquiet
  rw [State.interruptCheck_inject (hrequest.trans hpending) hI] at hstep
  obtain ⟨hinject, ⟨hbytes, -, hpushed, -⟩, hvector, hset, -⟩ := injectionEffects u
  have hcleared : u.inject.interruptPending = false := congrArg State.interruptPending hinject
  rw [← hmem] at hm
  have hread := hbytes hm
  rw [hsp, hpc] at hread
  refine ⟨_, hstep, hcleared, hset, ?_, ?_, ?_, ?_, ?_⟩
  · rw [← hsp]
    exact hpushed
  · rw [vectorTarget, ← hmem]
    exact hvector
  · rw [← BitVec.sub_zero s.sp]
    exact hread 0 _ rfl
  · exact hread 1 _ rfl
  · rw [← hI]
    exact congrArg (Status.flag .I) (hread 2 _ rfl)

/-- Settles O13: `init()` may write memory and set the request, and each write keeps memory in its canonical form. -/
theorem launchState : Obligations.LaunchState := fun _ _ init =>
  ⟨rfl, rfl, rfl, rfl, rfl, rfl, rfl, Bool.false_or init.asserts, rfl, rfl, fun h => Memory.wf_writes h init.writes⟩

end Claims

end Sys2Proof
end

section
/-! PROOFS. The reset state (O12): it stands at FETCH, so of `LoopInv` only the canonical memory and the armed
controller ask anything of it. -/

namespace Sys2Proof

open Machine

namespace Claims

/-- At FETCH the loop's invariant asks only for memory's canonical form and the armed controller: its clauses about WAIT
and DIRTY speak of the other phases (rules R117, R118 and R124). -/
theorem loopInv_of_fetch {s : State} (hphase : s.phase = .fetch) (hm : s.mem.wf) (hi : s.icState = .armed) :
    LoopInv s :=
  ⟨hm, .inl hphase, fun hpoll => absurd (hphase.symm.trans hpoll) nofun, fun hne => absurd hphase hne, hi⟩

/-- The cursor's reset values, both 0, lie in the ranges of rules R30 and R31. -/
theorem cursorInRange_reset : CursorInRange State.reset :=
  ⟨Nat.zero_le 3, by decide, by decide⟩

/-- Settles O12: the reset state is at FETCH, armed, with the empty memory and the cursor at 0. -/
theorem resetMeetsInvariant : Obligations.ResetMeetsInvariant :=
  ⟨loopInv_of_fetch rfl Memory.wf_nil rfl, cursorInRange_reset⟩

end Claims

end Sys2Proof
end
